-- ==== Sys2Proof/Word.lean ====
section
/-! DEFINITION. The plain types of the block: bytes, event words, the five frame positions and what the
input ports carry. -/

namespace Sys2Proof

/-- `DATA_W` = 8: every received byte, transmitted byte and compare value (00_scope R8). -/
abbrev Byte := BitVec 8

/-- The event word `ev = {state, b}`, 11 bits (30_encoding R45, R46). -/
abbrev EventWord := BitVec 11

/-- The values of the frame-position register `state`: the bucket `min(offset, 4)` (10_state R18). A type with
exactly five values, as R19 asks, so the codes 101, 110 and 111 are no states. -/
inductive FrameState where
  /-- 0: the next byte is the declared length -/
  | awaitingLength
  /-- 1: the next byte is the red intensity -/
  | awaitingRed
  /-- 2: the next byte is the green intensity -/
  | awaitingGreen
  /-- 3: the next byte is the blue intensity -/
  | awaitingBlue
  /-- 4: the next byte is passthrough payload -/
  | passthrough
  deriving DecidableEq, Repr

/-- What the four input ports carry at one step (10_state R27). -/
structure Inputs where
  /-- reset request -/
  rst : Bool
  /-- the receive source offers a byte -/
  rxValid : Bool
  /-- the offered byte -/
  rxData : Byte
  /-- the transmit sink's single slot is free -/
  txReady : Bool
  deriving DecidableEq, Repr, Inhabited

end Sys2Proof
end

