-- ==== Sys2Proof/Config.lean ====
section
/-! DEFINITION. What is fixed for the block (00_scope R8), what an implementation fixes (R9) and the free values. -/

namespace Sys2Proof.Config

/-- `SENTINEL`: the byte that ends a frame (00_scope R8). -/
abbrev sentinel : Byte := 0x0D#8

/-- `LEN_BIAS`: the length echo is `N − 3` (00_scope R8). -/
abbrev lenBias : Byte := 3#8

/-- `INV_MAX`: a compare value is `255 − b` (00_scope R8). -/
abbrev invMax : Byte := 255#8

/-- `CHAN_RESET_R`, an OPEN parameter (00_scope R9, 92_eei_decisions D7). No value: log 1. -/
opaque chanResetR : Byte

/-- `CHAN_RESET_G`, an OPEN parameter (00_scope R9, 92_eei_decisions D7). No value: log 1. -/
opaque chanResetG : Byte

/-- `CHAN_RESET_B`, an OPEN parameter (00_scope R9, 92_eei_decisions D7). No value: log 1. -/
opaque chanResetB : Byte

/-- What a reset at tick `n` leaves in `cur_byte`: unspecified (70_reset R97, U4 "any value"). Log 2. -/
opaque resetCurByte : Nat → Byte

/-- What a reset at tick `n` leaves in `tx_hold`: unspecified (70_reset R97, U4 "any value"). Log 2. -/
opaque resetTxHold : Nat → Byte

/-- `tx_data` at tick `n` while `tx_valid = 0`: "any value otherwise" (10_state R28, U5). Log 6. -/
opaque idleTxData : Nat → Byte

/-- What the environment drives at tick `n` where `State.inputs` lists nothing: "the only free choices in a run
are the environment's inputs" (40_event_cycle R71). Log 3. -/
opaque envInput : Nat → Inputs

/-- `UNDERFLOW_POLICY` of 92_eei_decisions D5: how `N − 3` comes out for `N < 3`. -/
inductive UnderflowPolicy where
  /-- modulo 256, this spec's value -/
  | wrap
  /-- at 0, one of the policies the source names and this spec does not take -/
  | saturate
  deriving DecidableEq, Repr

/-- The readings 93_implementation_defined U1 and U12 let a model state claims under. Only the reference step
function `Reference.step` takes them; the machine itself is this spec's. -/
structure Policy where
  /-- `SENTINEL_DISPATCHES` (90_conflicts C1, U12) -/
  sentinelDispatches : Bool
  /-- `UNDERFLOW_POLICY` (D5, U1) -/
  underflow : UnderflowPolicy
  deriving DecidableEq, Repr

/-- This spec's readings: a sentinel causes its state's branch effect, and `N − 3` wraps. -/
def specPolicy : Policy := { sentinelDispatches := true, underflow := .wrap }

end Sys2Proof.Config
end

