-- ==== Sys2Proof/Syntax.lean ====
section
/-! DEFINITION. The entries of the dispatch table (30_encoding R49), in the table's order. -/

namespace Sys2Proof

/-- The ten entries of the dispatch table. A `_T` entry has no operand: its byte is the sentinel 0x0D. The only
operand of the others is the accepted byte `b` (30_encoding R48). -/
inductive Instr where
  /-- LEN_T: a sentinel as byte 0 (41_length R74) -/
  | lenT
  /-- LEN: length echo of a non-sentinel byte 0 (41_length R73) -/
  | len (b : Byte)
  /-- RED_T: a sentinel as byte 1 (42_color R76) -/
  | redT
  /-- RED: set the red compare value (42_color R75) -/
  | red (b : Byte)
  /-- GRN_T: a sentinel as byte 2 (42_color R78) -/
  | grnT
  /-- GRN: set the green compare value (42_color R77) -/
  | grn (b : Byte)
  /-- BLU_T: a sentinel as byte 3 (42_color R80) -/
  | bluT
  /-- BLU: set the blue compare value (42_color R79) -/
  | blu (b : Byte)
  /-- PASS_T: a sentinel at offset ≥ 4 (43_passthrough R82) -/
  | passT
  /-- PASS: relay a payload byte (43_passthrough R81) -/
  | pass (b : Byte)
  deriving DecidableEq, Repr

end Sys2Proof
end

