-- ==== Sys2Proof/WellFormed.lean ====
section
/-! DEFINITION. Which terms of `Instr` the dispatch table has. -/

namespace Sys2Proof

/-- An operand of a general row: any byte but the sentinel, which the row above takes (30_encoding R49). -/
def isData (b : Byte) : Bool := b != Config.sentinel

/-- The entries the table has: a general row's operand is never the sentinel (R73, R75, R77, R79, R81). -/
def Instr.wf : Instr → Bool
  | .lenT => true
  | .len b => isData b
  | .redT => true
  | .red b => isData b
  | .grnT => true
  | .grn b => isData b
  | .bluT => true
  | .blu b => isData b
  | .passT => true
  | .pass b => isData b

end Sys2Proof
end

