-- ==== Sys2Proof/Decode.lean ====
section
/-! DEFINITION. Event words: their layout, the decoder, the encoder, and the dispatch table as the spec lists it. -/

namespace Sys2Proof

/-! ## Layout (30_encoding R46) -/

/-- The 3-bit code of `state` (10_state R19). -/
def FrameState.code : FrameState → BitVec 3
  | .awaitingLength => 0b000#3
  | .awaitingRed => 0b001#3
  | .awaitingGreen => 0b010#3
  | .awaitingBlue => 0b011#3
  | .passthrough => 0b100#3

/-- The state a code stands for; none for the reserved codes 101, 110 and 111 (30_encoding R52). -/
def FrameState.ofCode (c : BitVec 3) : Option FrameState :=
  if c = 0b000#3 then some .awaitingLength
  else if c = 0b001#3 then some .awaitingRed
  else if c = 0b010#3 then some .awaitingGreen
  else if c = 0b011#3 then some .awaitingBlue
  else if c = 0b100#3 then some .passthrough
  else none

/-- `s = ev[10:8]`. -/
def evState (ev : EventWord) : BitVec 3 := ev.extractLsb' 8 3

/-- `d = ev[7:0]`. -/
def evData (ev : EventWord) : Byte := ev.extractLsb' 0 8

/-- `ev = {state, b}`, formed when `b` is accepted at `state`. -/
def eventWord (st : FrameState) (b : Byte) : EventWord := st.code ++ b

/-! ## Decoding (30_encoding R50) -/

/-- Why an event word has no entry. -/
inductive DecodeRefusal where
  /-- `s` is 101, 110 or 111: reserved, no entry is defined (30_encoding R52) -/
  | reservedState (code : BitVec 3)
  deriving DecidableEq, Repr

/-- `entry(s, TERM)`: rows 1, 3, 5, 7 and 9. -/
def termEntry : FrameState → Instr
  | .awaitingLength => .lenT
  | .awaitingRed => .redT
  | .awaitingGreen => .grnT
  | .awaitingBlue => .bluT
  | .passthrough => .passT

/-- `entry(s, DATA)`: rows 2, 4, 6, 8 and 10. -/
def dataEntry : FrameState → Byte → Instr
  | .awaitingLength, d => .len d
  | .awaitingRed, d => .red d
  | .awaitingGreen, d => .grn d
  | .awaitingBlue, d => .blu d
  | .passthrough, d => .pass d

/-- The decoding algorithm of R50. -/
def decode (ev : EventWord) : Except DecodeRefusal Instr :=
  match FrameState.ofCode (evState ev) with
  | none => .error (.reservedState (evState ev))
  | some st => .ok (if evData ev = Config.sentinel then termEntry st else dataEntry st (evData ev))

/-! ## Encoding -/

/-- The event word of an entry, from the `s` and `d` columns of the table of R49. -/
def encode : Instr → EventWord
  | .lenT => 0b00000001101#11
  | .len b => 0b000#3 ++ b
  | .redT => 0b00100001101#11
  | .red b => 0b001#3 ++ b
  | .grnT => 0b01000001101#11
  | .grn b => 0b010#3 ++ b
  | .bluT => 0b01100001101#11
  | .blu b => 0b011#3 ++ b
  | .passT => 0b10000001101#11
  | .pass b => 0b100#3 ++ b

/-! ## The dispatch table (30_encoding R49) -/

/-- A row of the table: the words `ev` with `ev & mask = match` are the row's, and `entry d` is its entry. -/
structure Row where
  mnemonic : String
  matchBits : EventWord
  mask : EventWord
  entry : Byte → Instr

/-- Does `ev` match the row? -/
def Row.admits (r : Row) (ev : EventWord) : Bool := ev &&& r.mask == r.matchBits

/-- The ten rows, in the order they are tried. -/
def dispatchTable : List Row :=
  [ ⟨"LEN_T", 0x00D#11, 0x7FF#11, fun _ => .lenT⟩,
    ⟨"LEN", 0x000#11, 0x700#11, fun d => .len d⟩,
    ⟨"RED_T", 0x10D#11, 0x7FF#11, fun _ => .redT⟩,
    ⟨"RED", 0x100#11, 0x700#11, fun d => .red d⟩,
    ⟨"GRN_T", 0x20D#11, 0x7FF#11, fun _ => .grnT⟩,
    ⟨"GRN", 0x200#11, 0x700#11, fun d => .grn d⟩,
    ⟨"BLU_T", 0x30D#11, 0x7FF#11, fun _ => .bluT⟩,
    ⟨"BLU", 0x300#11, 0x700#11, fun d => .blu d⟩,
    ⟨"PASS_T", 0x40D#11, 0x7FF#11, fun _ => .passT⟩,
    ⟨"PASS", 0x400#11, 0x700#11, fun d => .pass d⟩ ]

/-- First match wins: "the first row whose `match` equals `ev & mask` is selected" (R49). -/
def firstMatch (ev : EventWord) : Option Instr :=
  (dispatchTable.find? fun r => r.admits ev).map fun r => r.entry (evData ev)

/-! ## The host's reading of a table word -/

/-- The entry the decoder reads from the word `w` of `nbits` bits. An event word is 11 bits wide and is stored
nowhere, so a word with a bit above bit 10 is no event word (log 14). -/
def decodeTableWord (nbits w : Nat) : Option Instr :=
  let v := w % 2 ^ nbits
  if v < 2 ^ 11 then (decode (BitVec.ofNat 11 v)).toOption else none

end Sys2Proof
end

