-- ==== Sys2Proof/Machine/State.lean ====
section
/-! DEFINITION. The state of the machine: the spec's eight elements (10_state R15), what the input ports carry,
what the transmit channel has taken, and the model's own counter. -/

namespace Sys2Proof.Machine

/-- `phase` (10_state R24): between events, or inside an event that waits to transmit. -/
inductive Phase where
  /-- `IDLE` = 0 -/
  | idle
  /-- `TXWAIT` = 1 -/
  | txWait
  deriving DecidableEq, Repr

/-- The block raises no exception (60_exceptions R83): there is no fault. -/
inductive Fault where
  deriving DecidableEq, Repr

/-- Why a step has no meaning. -/
inductive Refusal where
  /-- an entry whose meaning is not written yet; raised by `exec` alone, safe -/
  | notModelled (mnemonic : String)
  /-- a reserved event word, with its code `s` (30_encoding R52, U6 "refuse"); raised by `step` alone, safe; no
  state reaches it, since `state` has five values -/
  | reservedEventWord (code : BitVec 3)
  deriving DecidableEq, Repr

/-- The state of the machine. The first eight fields are the block's (10_state, section 2). -/
structure State where
  /-- `state`: the frame-position register (R18, R19) -/
  state : FrameState
  /-- `cmp_r`: the red compare register (R20) -/
  cmpR : Byte
  /-- `cmp_g`: the green compare register (R20) -/
  cmpG : Byte
  /-- `cmp_b`: the blue compare register (R20) -/
  cmpB : Byte
  /-- `status`: the status indicator (R22) -/
  status : Bool
  /-- `phase`: IDLE or TXWAIT (R24) -/
  phase : Phase
  /-- `cur_byte`: the byte of the event in progress (R25) -/
  curByte : Byte
  /-- `tx_hold`: the byte the event in progress will transmit (R26) -/
  txHold : Byte
  /-- what the input ports carry, one record a step, the present one first (R27; log 3) -/
  inputs : List Inputs
  /-- the bytes transferred on the transmit channel, in order of transfer (R12, R72; log 5) -/
  sent : List Byte
  /-- how many steps the model has taken; free values are applied to it (log 4) -/
  tick : Nat
  deriving DecidableEq, Repr

/-- The machine right after reset (70_reset R97): the state a reset step at tick 0 leaves, with nothing placed on
the input ports and nothing transmitted. -/
def State.reset : State where
  state := .awaitingLength
  cmpR := Config.chanResetR
  cmpG := Config.chanResetG
  cmpB := Config.chanResetB
  status := false
  phase := .idle
  curByte := Config.resetCurByte 0
  txHold := Config.resetTxHold 0
  inputs := []
  sent := []
  tick := 0

end Sys2Proof.Machine
end

