-- ==== Sys2Proof/Machine/Operands.lean ====
section
/-! DEFINITION. The operand `b` and the values derived from it (30_encoding R48). -/

namespace Sys2Proof.Machine

/-- The length echo `(b − 3) mod 256` (41_length R73; wrap is 92_eei_decisions D5). -/
def lenEcho (b : Byte) : Byte := b - Config.lenBias

/-- The compare value `255 − b` (42_color R75). -/
def compareValue (b : Byte) : Byte := Config.invMax - b

/-- The relayed byte: `b` itself (43_passthrough R81). -/
def relayValue (b : Byte) : Byte := b

end Sys2Proof.Machine
end

