-- ==== Sys2Proof/Machine/Flags.lean ====
section
/-! DEFINITION. The block's only flag, `status` (10_state R22, R23). -/

namespace Sys2Proof.Machine

/-- At acceptance: `status <- 1`, for every entry (40_event_cycle R61). -/
def statusAtAccept : Bool := true

/-- At completion with byte `c`: cleared by the sentinel, else kept (40_event_cycle R69). -/
def statusAtComplete (c : Byte) (status : Bool) : Bool :=
  if c = Config.sentinel then false else status

/-- At reset: 0 (70_reset R97). -/
def statusAtReset : Bool := false

end Sys2Proof.Machine
end

