-- ==== Sys2Proof/Machine/Ops.lean ====
section
/-! DEFINITION. The operations every entry shares: acceptance, branch effects, transmit, completion, reset. -/

namespace Sys2Proof

/-- `min(state + 1, 4)` (40_event_cycle R69, 10_state R18). -/
def FrameState.next : FrameState → FrameState
  | .awaitingLength => .awaitingRed
  | .awaitingRed => .awaitingGreen
  | .awaitingGreen => .awaitingBlue
  | .awaitingBlue => .passthrough
  | .passthrough => .passthrough

/-- The position after an event with byte `c` (40_event_cycle R69). -/
def FrameState.after (c : Byte) (st : FrameState) : FrameState :=
  if c = Config.sentinel then .awaitingLength else st.next

namespace Machine

/-! ## The environment's inputs -/

/-- What the input ports carry at this step: the first listed record, else a free value (log 3). -/
def State.now (s : State) : Inputs :=
  match s.inputs with
  | [] => Config.envInput s.tick
  | i :: _ => i

/-- The state a step starts to write: the record of inputs is used up, and the tick counts the step. -/
def State.consume (s : State) : State := { s with inputs := s.inputs.tail, tick := s.tick + 1 }

/-! ## Acceptance and branch effects -/

/-- The writes every acceptance makes (40_event_cycle R61). -/
def State.accept (b : Byte) (s : State) : State := { s with status := statusAtAccept, curByte := b }

/-- The branch effect of a transmitting entry (40_event_cycle R62, R64): the event will wait in TXWAIT. -/
def State.loadTransmit (v : Byte) (s : State) : State := { s with txHold := v, phase := .txWait }

/-- The branch effect of the red entries (40_event_cycle R62). -/
def State.setRed (v : Byte) (s : State) : State := { s with cmpR := v }

/-- The branch effect of the green entries (40_event_cycle R62). -/
def State.setGreen (v : Byte) (s : State) : State := { s with cmpG := v }

/-- The branch effect of the blue entries (40_event_cycle R62). -/
def State.setBlue (v : Byte) (s : State) : State := { s with cmpB := v }

/-- The termination check `Complete(c)` (40_event_cycle R69). -/
def State.complete (c : Byte) (s : State) : State :=
  { s with state := s.state.after c, status := statusAtComplete c s.status }

/-! ## The two other kinds of step -/

/-- The transmit step (40_event_cycle R66): one transfer of `tx_hold`, back to IDLE, completion of `cur_byte`. -/
def State.transmitStep (s : State) : State :=
  State.complete s.curByte { s with sent := s.sent ++ [s.txHold], phase := .idle }

/-- The reset step (70_reset R97). `cur_byte` and `tx_hold` are unspecified after it: free values (log 2). -/
def State.resetStep (s : State) : State :=
  { s with
    state := .awaitingLength
    status := statusAtReset
    phase := .idle
    cmpR := Config.chanResetR
    cmpG := Config.chanResetG
    cmpB := Config.chanResetB
    curByte := Config.resetCurByte s.tick
    txHold := Config.resetTxHold s.tick }

/-! ## The event word -/

/-- The entry that the byte offered now selects at the present `state` (30_encoding R46, R50). -/
def State.selected (s : State) : Except DecodeRefusal Instr := decode (eventWord s.state s.now.rxData)

/-- `s` with the event word `ev` about to be formed: IDLE at the word's `state`, and its byte offered with no reset.
A reserved word can be placed nowhere, since `state` has five values: then nothing changes. -/
def State.placeEventWord (s : State) (ev : EventWord) : State :=
  match FrameState.ofCode (evState ev) with
  | none => s
  | some st =>
    { s with
      state := st
      phase := .idle
      inputs := { rst := false, rxValid := true, rxData := evData ev, txReady := false } :: s.inputs }

end Machine

end Sys2Proof
end

