-- ==== Sys2Proof/Machine/Ports.lean ====
section
/-! DEFINITION. The output ports and the two transfers (10_state R28). -/

namespace Sys2Proof.Machine

/-- The 1-bit code of `phase` (10_state R24). -/
def Phase.code : Phase → BitVec 1
  | .idle => 0#1
  | .txWait => 1#1

/-- `rx_ready`: 1 iff `phase = IDLE` and `rst = 0`. -/
def State.rxReady (s : State) : Bool := s.phase == .idle && !s.now.rst

/-- `tx_valid`: 1 iff `phase = TXWAIT` and `rst = 0`. -/
def State.txValid (s : State) : Bool := s.phase == .txWait && !s.now.rst

/-- `tx_data`: `tx_hold` when `tx_valid = 1`; any value otherwise (U5, log 6). -/
def State.txData (s : State) : Byte := if s.txValid then s.txHold else Config.idleTxData s.tick

/-- `pwm_r`: `cmp_r`. -/
def State.pwmR (s : State) : Byte := s.cmpR

/-- `pwm_g`: `cmp_g`. -/
def State.pwmG (s : State) : Byte := s.cmpG

/-- `pwm_b`: `cmp_b`. -/
def State.pwmB (s : State) : Byte := s.cmpB

/-- `status_out`: `status`. -/
def State.statusOut (s : State) : Bool := s.status

/-- A receive transfer happens where `rx_valid = 1` and `rx_ready = 1`. -/
def State.rxTransfer (s : State) : Bool := s.now.rxValid && s.rxReady

/-- A transmit transfer happens where `tx_valid = 1` and `tx_ready = 1`. -/
def State.txTransfer (s : State) : Bool := s.txValid && s.now.txReady

end Sys2Proof.Machine
end

