-- ==== Sys2Proof/Machine/Colour.lean ====
section
/-! DEFINITION. The colour-update entries (42_color): the whole event is one step (40_event_cycle R63). -/

namespace Sys2Proof.Machine

/-- RED_T (R76): `cmp_r <- 255 − 0x0D`, then the frame ends. -/
def execRedT (s : State) : Host.Outcome State Fault Refusal :=
  .next (((s.accept Config.sentinel).setRed (compareValue Config.sentinel)).complete Config.sentinel)

/-- RED (R75): `cmp_r <- 255 − b`. -/
def execRed (b : Byte) (s : State) : Host.Outcome State Fault Refusal :=
  .next (((s.accept b).setRed (compareValue b)).complete b)

/-- GRN_T (R78): `cmp_g <- 255 − 0x0D`, then the frame ends. -/
def execGrnT (s : State) : Host.Outcome State Fault Refusal :=
  .next (((s.accept Config.sentinel).setGreen (compareValue Config.sentinel)).complete Config.sentinel)

/-- GRN (R77): `cmp_g <- 255 − b`. -/
def execGrn (b : Byte) (s : State) : Host.Outcome State Fault Refusal :=
  .next (((s.accept b).setGreen (compareValue b)).complete b)

/-- BLU_T (R80): `cmp_b <- 255 − 0x0D`, then the frame ends. -/
def execBluT (s : State) : Host.Outcome State Fault Refusal :=
  .next (((s.accept Config.sentinel).setBlue (compareValue Config.sentinel)).complete Config.sentinel)

/-- BLU (R79): `cmp_b <- 255 − b`. -/
def execBlu (b : Byte) (s : State) : Host.Outcome State Fault Refusal :=
  .next (((s.accept b).setBlue (compareValue b)).complete b)

end Sys2Proof.Machine
end

