-- ==== Sys2Proof/Machine/Length.lean ====
section
/-! DEFINITION. The length-echo entries, accept step (41_length). Their transmit step is `State.transmitStep`. -/

namespace Sys2Proof.Machine

/-- LEN_T (R74): `tx_hold <- 0x0D − 3`, wait to transmit. -/
def execLenT (s : State) : Host.Outcome State Fault Refusal :=
  .next ((s.accept Config.sentinel).loadTransmit (lenEcho Config.sentinel))

/-- LEN (R73): `tx_hold <- (b − 3) mod 256`, wait to transmit. -/
def execLen (b : Byte) (s : State) : Host.Outcome State Fault Refusal :=
  .next ((s.accept b).loadTransmit (lenEcho b))

end Sys2Proof.Machine
end

