-- ==== Sys2Proof/Machine/Passthrough.lean ====
section
/-! DEFINITION. The passthrough entries, accept step (43_passthrough). Their transmit step is `State.transmitStep`. -/

namespace Sys2Proof.Machine

/-- PASS_T (R82): the sentinel itself is relayed. -/
def execPassT (s : State) : Host.Outcome State Fault Refusal :=
  .next ((s.accept Config.sentinel).loadTransmit (relayValue Config.sentinel))

/-- PASS (R81): `tx_hold <- b`, wait to transmit. -/
def execPass (b : Byte) (s : State) : Host.Outcome State Fault Refusal :=
  .next ((s.accept b).loadTransmit (relayValue b))

end Sys2Proof.Machine
end

