-- ==== Sys2Proof/Machine/Dispatch.lean ====
section
/-! DEFINITION. One arm per entry of the dispatch table, in the table's order. -/

namespace Sys2Proof.Machine

/-- The meaning of an entry: the accept step of its event (40_event_cycle R61 to R64; log 7). -/
def exec (i : Instr) (s : State) : Host.Outcome State Fault Refusal :=
  match i with
  | .lenT => Sys2Proof.Machine.execLenT s
  | .len b => Sys2Proof.Machine.execLen b s
  | .redT => Sys2Proof.Machine.execRedT s
  | .red b => Sys2Proof.Machine.execRed b s
  | .grnT => Sys2Proof.Machine.execGrnT s
  | .grn b => Sys2Proof.Machine.execGrn b s
  | .bluT => Sys2Proof.Machine.execBluT s
  | .blu b => Sys2Proof.Machine.execBlu b s
  | .passT => Sys2Proof.Machine.execPassT s
  | .pass b => Sys2Proof.Machine.execPass b s

end Sys2Proof.Machine
end

