-- ==== Sys2Proof/Machine/Step.lean ====
section
/-! DEFINITION. One step of the Dispatcher (40_event_cycle R71), and how the host places an event word. -/

namespace Sys2Proof.Machine

/-- One step: reset wins (60_exceptions R87); else a receive transfer runs the entry it selects; else a transmit
transfer completes the event; else the Dispatcher holds, which changes nothing of the block (R67, log 10). -/
def step (s : State) : Host.Outcome State Fault Refusal :=
  if s.now.rst then .next s.consume.resetStep
  else if s.rxTransfer then
    match s.selected with
    | .ok i => exec i s.consume
    | .error (.reservedState code) => .refused (.reservedEventWord code)
  else if s.txTransfer then .next s.consume.transmitStep
  else .next s.consume

/-- `s` with the event word `w` (its low 11 bits, of `nbits`) as the one the very next step forms and runs. -/
def State.withFetchWord (s : State) (nbits w : Nat) : State :=
  s.placeEventWord (BitVec.ofNat 11 (w % 2 ^ nbits))

end Sys2Proof.Machine
end

