-- ==== Sys2Proof/Machine/Reference.lean ====
section
/-! DEFINITION. The step function as R71 writes it, case by case on `state`, without the dispatch table. It is a
second text of the same machine, which `step` is stated to agree with; and it takes the two readings the spec lets
a model vary (`Config.Policy`). -/

namespace Sys2Proof.Machine.Reference

/-- `N − 3` under a policy: modulo 256 (D5), or stopping at 0. -/
def echo : Config.UnderflowPolicy → Byte → Byte
  | .wrap, b => BitVec.ofInt 8 (((b.toNat : Int) - 3) % 256)
  | .saturate, b => BitVec.ofNat 8 (b.toNat - 3)

/-- `255 − b`, on numbers. -/
def inverted (b : Byte) : Byte := BitVec.ofNat 8 (255 - b.toNat)

/-- `min(state + 1, 4)`, on the numbers of R18. -/
def advance (st : FrameState) : FrameState :=
  match min (st.code.toNat + 1) 4 with
  | 0 => .awaitingLength
  | 1 => .awaitingRed
  | 2 => .awaitingGreen
  | 3 => .awaitingBlue
  | _ => .passthrough

/-- `Complete(c)` as R69 writes it. -/
def complete (c : Byte) (s : State) : State :=
  if c = 0x0D#8 then { s with state := .awaitingLength, status := false }
  else { s with state := advance s.state }

/-- `Reset(S)` as R97 writes it. -/
def reset (s : State) : State :=
  { s with
    state := .awaitingLength
    status := false
    phase := .idle
    cmpR := Config.chanResetR
    cmpG := Config.chanResetG
    cmpB := Config.chanResetB
    curByte := Config.resetCurByte s.tick
    txHold := Config.resetTxHold s.tick }

/-- The branch on `state` of R71, for a byte that causes its state's branch effect. -/
def branch (p : Config.Policy) (b : Byte) (s : State) : State :=
  match s.state with
  | .awaitingLength => { s with txHold := echo p.underflow b, phase := .txWait }
  | .awaitingRed => complete b { s with cmpR := inverted b }
  | .awaitingGreen => complete b { s with cmpG := inverted b }
  | .awaitingBlue => complete b { s with cmpB := inverted b }
  | .passthrough => { s with txHold := b, phase := .txWait }

/-- `Step(S, in)` of R71. Where `p.sentinelDispatches` is false a sentinel performs only `Complete(0x0D)`: "no
transmit and no compare write" (93_implementation_defined U12). -/
def step (p : Config.Policy) (s : State) : State :=
  let inp := s.now
  let s := s.consume
  if inp.rst then reset s
  else if s.phase = .idle ∧ inp.rxValid = true then
    let b := inp.rxData
    let s := { s with status := true, curByte := b }
    if b = 0x0D#8 ∧ p.sentinelDispatches = false then complete b s else branch p b s
  else if s.phase = .txWait ∧ inp.txReady = true then
    complete s.curByte { s with sent := s.sent ++ [s.txHold], phase := .idle }
  else s

end Sys2Proof.Machine.Reference
end

