-- ==== Sys2Proof/Safety.lean ====
section
/-! DEFINITION. The words the claims use: the invariant, what a run accepts, what a run is observed to do, frames,
and the scripts of inputs that play a byte sequence. -/

namespace Sys2Proof.Machine

/-! ## The invariant -/

/-- In TXWAIT `status = 1` and the event in progress is a length echo or a relay of `cur_byte`; in IDLE, a frame
under way shows on `status` (10_state R30, 40_event_cycle R64). -/
def State.Inv (s : State) : Prop :=
  (s.phase = .txWait → s.status = true ∧
    ((s.state = .awaitingLength ∧ s.txHold = lenEcho s.curByte) ∨
      (s.state = .passthrough ∧ s.txHold = relayValue s.curByte))) ∧
  (s.phase = .idle → s.state ≠ .awaitingLength → s.status = true)

/-! ## Runs -/

/-- `n` steps from `s`: `Host.Core.run` of this machine, in the machine's own types. -/
def run : Nat → State → Host.Outcome State Fault Refusal
  | 0, s => .next s
  | n + 1, s =>
    match step s with
    | .next t => run n t
    | .fault r => .fault r
    | .refused r => .refused r

/-! ## What a run accepts -/

/-- The byte this step accepts, if it accepts one (40_event_cycle R60). -/
def State.acceptedNow (s : State) : List Byte := if s.rxTransfer then [s.now.rxData] else []

/-- The bytes `n` steps from `s` accept, in order. -/
def accepted : Nat → State → List Byte
  | 0, _ => []
  | n + 1, s =>
    s.acceptedNow ++
      match step s with
      | .next t => accepted n t
      | .fault _ => []
      | .refused _ => []

/-- The bytes accepted since the last reset, `h` before the run and `n` steps from `s` in it. -/
def history : Nat → State → List Byte → List Byte
  | 0, _, h => h
  | n + 1, s, h =>
    let h' := if s.now.rst then [] else h ++ s.acceptedNow
    match step s with
    | .next t => history n t h'
    | .fault _ => h'
    | .refused _ => h'

/-- How many bytes stand after the last sentinel of `h` (all of `h` where it holds none). -/
def sinceSentinel (h : List Byte) : Nat := (h.reverse.takeWhile fun b => b != Config.sentinel).length

/-! ## What a run is observed to do (40_event_cycle R72) -/

/-- The observation of a run: the transmitted bytes and the final `state`, compare registers and `status`. -/
structure Observation where
  state : FrameState
  cmpR : Byte
  cmpG : Byte
  cmpB : Byte
  status : Bool
  sent : List Byte
  deriving DecidableEq, Repr

/-- What is observed of a state. -/
def State.observe (s : State) : Observation :=
  { state := s.state, cmpR := s.cmpR, cmpG := s.cmpG, cmpB := s.cmpB, status := s.status, sent := s.sent }

/-- The branch effect of a whole event, its transmission made at once (40_event_cycle R62). -/
def Observation.branch (b : Byte) (o : Observation) : Observation :=
  match o.state with
  | .awaitingLength => { o with sent := o.sent ++ [b - 3#8] }
  | .awaitingRed => { o with cmpR := 255#8 - b }
  | .awaitingGreen => { o with cmpG := 255#8 - b }
  | .awaitingBlue => { o with cmpB := 255#8 - b }
  | .passthrough => { o with sent := o.sent ++ [b] }

/-- A whole event in one go (40_event_cycle R59): status, branch effect, termination check. -/
def Observation.event (o : Observation) (b : Byte) : Observation :=
  let o := Observation.branch b { o with status := true }
  if b = 0x0D#8 then { o with state := .awaitingLength, status := false }
  else { o with state := o.state.next }

/-- A state with its event in progress, if any, carried to its end. -/
def State.settled (s : State) : State := if s.phase = .txWait then s.transmitStep else s

/-! ## Frames (30_encoding R54, R57) -/

/-- `FRAME(N, r, g, b, p_1, ..., p_m)`. -/
def frameBytes (len r g b : Byte) (payload : List Byte) : List Byte :=
  [len, r, g, b] ++ payload ++ [0x0D#8]

/-- A `FRAME` is well-formed if none of its operands is 0x0D. -/
def frameWf (len r g b : Byte) (payload : List Byte) : Prop :=
  ∀ x ∈ [len, r, g, b] ++ payload, x ≠ 0x0D#8

/-- The entries that a byte sequence selects, starting at `st` (30_encoding R54). -/
def entries : FrameState → List Byte → List (Except DecodeRefusal Instr)
  | _, [] => []
  | st, b :: bs => decode (eventWord st b) :: entries (st.after b) bs

/-! ## Scripts of inputs -/

/-- The environment offers `b`. -/
def offering (b : Byte) : Inputs := { rst := false, rxValid := true, rxData := b, txReady := false }

/-- The sink is ready and nothing is offered. -/
def sinkReady : Inputs := { rst := false, rxValid := false, rxData := 0#8, txReady := true }

/-- Does an entry at this position transmit (40_event_cycle R62)? -/
def FrameState.transmits (st : FrameState) : Bool := st == .awaitingLength || st == .passthrough

/-- The inputs of one event: `b` is offered; where its entry transmits, the sink keeps the block waiting while the
source offers `waits`, and then is ready. -/
def eventScript (st : FrameState) (b : Byte) (waits : List Byte) : List Inputs :=
  offering b :: (if FrameState.transmits st then waits.map offering ++ [sinkReady] else [])

/-- The inputs that play a byte sequence from `st`, each byte with the waits of its transmission
(40_event_cycle R72: the sink is ready within finite time). -/
def playScript : FrameState → List (Byte × List Byte) → List Inputs
  | _, [] => []
  | st, (b, waits) :: rest => eventScript st b waits ++ playScript (st.after b) rest

end Sys2Proof.Machine
end

