-- ==== Sys2Proof/Certificates/Slice0/Obligations.lean ====
section
/-! DEFINITION. The statements for the provers. Each docstring names the rule of the spec it formalises. A state's
`now` is what the input ports carry at this step. `consume` takes that record away and counts the step: of a hold,
only this is left, and it touches none of the spec's elements (the fields `inputs`, `sent` and `tick` are the
model's, logs 3, 4 and 5). -/

open Sys2Proof Sys2Proof.Machine

/-! ## Encoding -/

/-- 10_state R19: `state` is 3 bits wide and encodes its five values as 000 to 100; the codes 101, 110 and 111 are
not states, and no state of the machine holds one. -/
def Obligations.StateCodesAreZeroToFour : Prop :=
  (FrameState.code .awaitingLength = 0b000#3 ∧ FrameState.code .awaitingRed = 0b001#3 ∧
    FrameState.code .awaitingGreen = 0b010#3 ∧ FrameState.code .awaitingBlue = 0b011#3 ∧
    FrameState.code .passthrough = 0b100#3) ∧
  (∀ st : FrameState, FrameState.ofCode st.code = some st) ∧
  (∀ c : BitVec 3, 4 < c.toNat → FrameState.ofCode c = none) ∧
  (∀ s : State, s.state.code.toNat ≤ 4)

/-- 30_encoding R46: `ev[10:8]` is `state` at acceptance and `ev[7:0]` the accepted byte. -/
def Obligations.EventWordLayout : Prop :=
  ∀ (st : FrameState) (b : Byte),
    evState (eventWord st b) = st.code ∧ evData (eventWord st b) = b ∧
    (eventWord st b).toNat = 256 * st.code.toNat + b.toNat

/-- Words written out from the table of 30_encoding R49 and the vectors of 95_test_vectors: each decodes to the
entry it stands for. -/
def Obligations.WrittenWordsDecode : Prop :=
  decode 0b00000001101#11 = .ok .lenT ∧ decode 0b00000000111#11 = .ok (.len 0x07#8) ∧
  decode 0b00100001101#11 = .ok .redT ∧ decode 0b00110000000#11 = .ok (.red 0x80#8) ∧
  decode 0b01000001101#11 = .ok .grnT ∧ decode 0b01011111111#11 = .ok (.grn 0xFF#8) ∧
  decode 0b01100001101#11 = .ok .bluT ∧ decode 0b01101111111#11 = .ok (.blu 0x7F#8) ∧
  decode 0b10000001101#11 = .ok .passT ∧ decode 0b10001000001#11 = .ok (.pass 0x41#8)

/-- Decode and encode agree: the word of every well-formed entry decodes to that entry, whatever its operand. -/
def Obligations.DecodeOfEncode : Prop :=
  ∀ i : Instr, i.wf = true → decode (encode i) = .ok i

/-- Encode and decode agree: an entry read from a word is well-formed and has that word, so no two words share an
entry. -/
def Obligations.EncodeOfDecode : Prop :=
  ∀ (ev : EventWord) (i : Instr), decode ev = .ok i → i.wf = true ∧ encode i = ev

/-- 30_encoding R50: the decoding algorithm (`d = 0x0D` gives `entry(s, TERM)`, else `entry(s, DATA)`), and its
equivalence to the first-match order of R49. -/
def Obligations.DecodeIsFirstMatch : Prop :=
  (∀ (st : FrameState) (d : Byte),
    decode (eventWord st d) = .ok (if d = 0x0D#8 then termEntry st else dataEntry st d)) ∧
  (∀ ev : EventWord, (decode ev).toOption = firstMatch ev)

/-- 30_encoding R51: over the reachable event words, the entry of R50 is the entry of a row that the word matches;
the rows a word matches are the general row of its state alone or, for `{s, 0x0D}`, the `_T` row and then the
general row, so that first-match order takes the `_T` row. -/
def Obligations.RowsMatchedByAnEventWord : Prop :=
  ∀ (st : FrameState) (b : Byte),
    ((dispatchTable.filter fun r => r.admits (eventWord st b)).map fun r => r.entry b) =
      (if b = 0x0D#8 then [termEntry st, dataEntry st b] else [dataEntry st b]) ∧
    ∃ i, decode (eventWord st b) = .ok i ∧ firstMatch (eventWord st b) = some i ∧
      ∃ r ∈ dispatchTable, r.admits (eventWord st b) = true ∧ r.entry b = i

/-- 30_encoding R52: event words with `s` in 101, 110, 111 are reserved: no entry, and no row of the table; and no
state of the machine forms one. -/
def Obligations.ReservedWordsHaveNoEntry : Prop :=
  (∀ ev : EventWord, 4 < (evState ev).toNat →
    decode ev = .error (.reservedState (evState ev)) ∧ ∀ r ∈ dispatchTable, r.admits ev = false) ∧
  (∀ s : State, ∃ i, s.selected = .ok i)

/-- 30_encoding R54: the entries that a frame selects, by its length: truncated at bytes 1 to 4, or whole, with
any number of payload bytes. -/
def Obligations.EntriesOfAFrame : Prop :=
  ∀ (n r g b : Byte) (payload : List Byte), frameWf n r g b payload →
    entries .awaitingLength [0x0D#8] = [.ok .lenT] ∧
    entries .awaitingLength [n, 0x0D#8] = [.ok (.len n), .ok .redT] ∧
    entries .awaitingLength [n, r, 0x0D#8] = [.ok (.len n), .ok (.red r), .ok .grnT] ∧
    entries .awaitingLength [n, r, g, 0x0D#8] = [.ok (.len n), .ok (.red r), .ok (.grn g), .ok .bluT] ∧
    entries .awaitingLength (frameBytes n r g b payload) =
      [.ok (.len n), .ok (.red r), .ok (.grn g), .ok (.blu b)] ++ payload.map (fun p => .ok (.pass p)) ++
        [.ok .passT]

/-- 30_encoding R48: the two derived values, `(b − 3) mod 256` and `255 − b = ~b`, and the relayed byte. -/
def Obligations.OperandValues : Prop :=
  ∀ b : Byte,
    ((lenEcho b).toNat : Int) = ((b.toNat : Int) - 3) % 256 ∧
    (compareValue b).toNat = 255 - b.toNat ∧ compareValue b = ~~~b ∧ relayValue b = b

/-! ## The ten entries. Each says the entry's word, what `exec` answers (a record update: every field not named is
unchanged) and, for a transmitting entry, its transmit step in any environment. -/

/-- 41_length R73: LEN, the whole event. -/
def Obligations.LenEvent : Prop :=
  ∀ (b : Byte) (s : State), b ≠ 0x0D#8 → s.state = .awaitingLength →
    decode (eventWord .awaitingLength b) = .ok (.len b) ∧ eventWord .awaitingLength b &&& 0x700#11 = 0x000#11 ∧
    ∃ t, exec (.len b) s = .next t ∧
      t = { s with status := true, curByte := b, txHold := b - 3#8, phase := .txWait } ∧
      ∀ (env : List Inputs) (n : Nat) (u : State), u = { t with inputs := env, tick := n } → u.now.rst = false →
        (u.now.txReady = false → step u = .next u.consume) ∧
        (u.now.txReady = true → step u =
          .next { u.consume with sent := s.sent ++ [b - 3#8], phase := .idle, state := .awaitingRed })

/-- 41_length R74: LEN_T, the whole event. -/
def Obligations.LenTEvent : Prop :=
  ∀ s : State, s.state = .awaitingLength →
    decode 0x00D#11 = .ok .lenT ∧ eventWord .awaitingLength 0x0D#8 = 0x00D#11 ∧
    ∃ t, exec .lenT s = .next t ∧
      t = { s with status := true, curByte := 0x0D#8, txHold := 0x0A#8, phase := .txWait } ∧
      ∀ (env : List Inputs) (n : Nat) (u : State), u = { t with inputs := env, tick := n } → u.now.rst = false →
        (u.now.txReady = false → step u = .next u.consume) ∧
        (u.now.txReady = true → step u =
          .next { u.consume with
            sent := s.sent ++ [0x0A#8], phase := .idle, state := .awaitingLength, status := false })

/-- 42_color R75: RED. -/
def Obligations.RedEvent : Prop :=
  ∀ (b : Byte) (s : State), b ≠ 0x0D#8 → s.state = .awaitingRed →
    decode (eventWord .awaitingRed b) = .ok (.red b) ∧ eventWord .awaitingRed b &&& 0x700#11 = 0x100#11 ∧
    exec (.red b) s =
      .next { s with status := true, curByte := b, cmpR := 255#8 - b, state := .awaitingGreen }

/-- 42_color R76: RED_T. -/
def Obligations.RedTEvent : Prop :=
  ∀ s : State, s.state = .awaitingRed →
    decode 0x10D#11 = .ok .redT ∧ eventWord .awaitingRed 0x0D#8 = 0x10D#11 ∧
    exec .redT s =
      .next { s with status := false, curByte := 0x0D#8, cmpR := 0xF2#8, state := .awaitingLength }

/-- 42_color R77: GRN. -/
def Obligations.GrnEvent : Prop :=
  ∀ (b : Byte) (s : State), b ≠ 0x0D#8 → s.state = .awaitingGreen →
    decode (eventWord .awaitingGreen b) = .ok (.grn b) ∧ eventWord .awaitingGreen b &&& 0x700#11 = 0x200#11 ∧
    exec (.grn b) s =
      .next { s with status := true, curByte := b, cmpG := 255#8 - b, state := .awaitingBlue }

/-- 42_color R78: GRN_T. -/
def Obligations.GrnTEvent : Prop :=
  ∀ s : State, s.state = .awaitingGreen →
    decode 0x20D#11 = .ok .grnT ∧ eventWord .awaitingGreen 0x0D#8 = 0x20D#11 ∧
    exec .grnT s =
      .next { s with status := false, curByte := 0x0D#8, cmpG := 0xF2#8, state := .awaitingLength }

/-- 42_color R79: BLU. -/
def Obligations.BluEvent : Prop :=
  ∀ (b : Byte) (s : State), b ≠ 0x0D#8 → s.state = .awaitingBlue →
    decode (eventWord .awaitingBlue b) = .ok (.blu b) ∧ eventWord .awaitingBlue b &&& 0x700#11 = 0x300#11 ∧
    exec (.blu b) s =
      .next { s with status := true, curByte := b, cmpB := 255#8 - b, state := .passthrough }

/-- 42_color R80: BLU_T. -/
def Obligations.BluTEvent : Prop :=
  ∀ s : State, s.state = .awaitingBlue →
    decode 0x30D#11 = .ok .bluT ∧ eventWord .awaitingBlue 0x0D#8 = 0x30D#11 ∧
    exec .bluT s =
      .next { s with status := false, curByte := 0x0D#8, cmpB := 0xF2#8, state := .awaitingLength }

/-- 43_passthrough R81: PASS, the whole event. -/
def Obligations.PassEvent : Prop :=
  ∀ (b : Byte) (s : State), b ≠ 0x0D#8 → s.state = .passthrough →
    decode (eventWord .passthrough b) = .ok (.pass b) ∧ eventWord .passthrough b &&& 0x700#11 = 0x400#11 ∧
    ∃ t, exec (.pass b) s = .next t ∧
      t = { s with status := true, curByte := b, txHold := b, phase := .txWait } ∧
      ∀ (env : List Inputs) (n : Nat) (u : State), u = { t with inputs := env, tick := n } → u.now.rst = false →
        (u.now.txReady = false → step u = .next u.consume) ∧
        (u.now.txReady = true → step u =
          .next { u.consume with sent := s.sent ++ [b], phase := .idle, state := .passthrough })

/-- 43_passthrough R82: PASS_T, the whole event. -/
def Obligations.PassTEvent : Prop :=
  ∀ s : State, s.state = .passthrough →
    decode 0x40D#11 = .ok .passT ∧ eventWord .passthrough 0x0D#8 = 0x40D#11 ∧
    ∃ t, exec .passT s = .next t ∧
      t = { s with status := true, curByte := 0x0D#8, txHold := 0x0D#8, phase := .txWait } ∧
      ∀ (env : List Inputs) (n : Nat) (u : State), u = { t with inputs := env, tick := n } → u.now.rst = false →
        (u.now.txReady = false → step u = .next u.consume) ∧
        (u.now.txReady = true → step u =
          .next { u.consume with
            sent := s.sent ++ [0x0D#8], phase := .idle, state := .awaitingLength, status := false })

/-- The frame of all ten entries, in every state, also where `state` is not the entry's own: `exec` answers a next
state; no entry touches the environment's fields or the transmit channel; each compare register is written by its
own two entries alone; `tx_hold` and `phase` only by the transmitting entries, which leave `state` to the transmit
step; and no entry writes both a compare register and `tx_hold`. -/
def Obligations.EntryFrame : Prop :=
  ∀ (i : Instr) (s : State), ∃ t, exec i s = .next t ∧
    t.inputs = s.inputs ∧ t.sent = s.sent ∧ t.tick = s.tick ∧
    ((∀ b, i ≠ .red b) → i ≠ .redT → t.cmpR = s.cmpR) ∧
    ((∀ b, i ≠ .grn b) → i ≠ .grnT → t.cmpG = s.cmpG) ∧
    ((∀ b, i ≠ .blu b) → i ≠ .bluT → t.cmpB = s.cmpB) ∧
    ((∀ b, i ≠ .len b) → i ≠ .lenT → (∀ b, i ≠ .pass b) → i ≠ .passT →
      t.txHold = s.txHold ∧ t.phase = s.phase) ∧
    (((∃ b, i = .len b) ∨ i = .lenT ∨ (∃ b, i = .pass b) ∨ i = .passT) →
      t.state = s.state ∧ t.phase = .txWait)

/-! ## The event cycle -/

/-- A step runs the decoded entry: where the ports offer a byte in IDLE with no reset, the step is `exec` of the
entry that the event word decodes to, at the state from which the record of inputs has been taken. -/
def Obligations.StepRunsTheDecodedEntry : Prop :=
  ∀ (s : State) (i : Instr), s.phase = .idle → s.now.rst = false → s.now.rxValid = true →
    decode (eventWord s.state s.now.rxData) = .ok i →
    step s = exec i s.consume ∧ s.consume = { s with inputs := s.inputs.tail, tick := s.tick + 1 }

/-- 40_event_cycle R62: the branch effect depends on `state` only, and writes only the elements of its arm, for
every byte, the sentinel among them. -/
def Obligations.BranchDependsOnStateOnly : Prop :=
  ∀ (s : State) (b : Byte), s.phase = .idle → s.now.rst = false → s.now.rxValid = true → s.now.rxData = b →
    ∃ t, step s = .next t ∧ t.sent = s.sent ∧
      match s.state with
      | .awaitingLength => t.txHold = b - 3#8 ∧ t.phase = .txWait ∧ t.cmpR = s.cmpR ∧ t.cmpG = s.cmpG ∧ t.cmpB = s.cmpB
      | .awaitingRed => t.cmpR = 255#8 - b ∧ t.phase = .idle ∧ t.txHold = s.txHold ∧ t.cmpG = s.cmpG ∧ t.cmpB = s.cmpB
      | .awaitingGreen => t.cmpG = 255#8 - b ∧ t.phase = .idle ∧ t.txHold = s.txHold ∧ t.cmpR = s.cmpR ∧ t.cmpB = s.cmpB
      | .awaitingBlue => t.cmpB = 255#8 - b ∧ t.phase = .idle ∧ t.txHold = s.txHold ∧ t.cmpR = s.cmpR ∧ t.cmpG = s.cmpG
      | .passthrough => t.txHold = b ∧ t.phase = .txWait ∧ t.cmpR = s.cmpR ∧ t.cmpG = s.cmpG ∧ t.cmpB = s.cmpB

/-- 40_event_cycle R61, with R69: acceptance latches the byte and asserts `status`; at the end of the step `status`
is 0 only where the step also completed on a sentinel. -/
def Obligations.AcceptanceLatchesTheByte : Prop :=
  ∀ s : State, s.phase = .idle → s.now.rst = false → s.now.rxValid = true →
    ∃ t, step s = .next t ∧ t.curByte = s.now.rxData ∧
      (t.status = false ↔ s.now.rxData = 0x0D#8 ∧ t.phase = .idle)

/-- 40_event_cycle R66: the transmit step, with its completion written out, in every state. -/
def Obligations.TransmitStep : Prop :=
  ∀ s : State, s.now.rst = false → s.phase = .txWait → s.now.txReady = true →
    step s = .next
      (if s.curByte = 0x0D#8 then
        { s.consume with sent := s.sent ++ [s.txHold], phase := .idle, state := .awaitingLength, status := false }
      else { s.consume with sent := s.sent ++ [s.txHold], phase := .idle, state := s.state.next })

/-- 40_event_cycle R69: `Complete(c)`: the sentinel resets `state` and clears `status`, any other byte advances
`state` to `min(state + 1, 4)`; nothing else is written. -/
def Obligations.CompletionCheck : Prop :=
  ∀ (c : Byte) (s : State),
    (c = 0x0D#8 → s.complete c = { s with state := .awaitingLength, status := false }) ∧
    (c ≠ 0x0D#8 → s.complete c = { s with state := (s.complete c).state } ∧
      (s.complete c).state.code.toNat = min (s.state.code.toNat + 1) 4)

/-- 40_event_cycle R67: however long the sink is not ready, a block in TXWAIT takes no step but reset: the run
leaves every element, the transmit channel included, as it was, accepts no byte, and `status` (1 in every state
that meets the invariant) stays. -/
def Obligations.HoldWhileSinkNotReady : Prop :=
  ∀ (n : Nat) (s : State), s.phase = .txWait → n ≤ s.inputs.length →
    (∀ i ∈ s.inputs.take n, i.rst = false ∧ i.txReady = false) →
    run n s = .next { s with inputs := s.inputs.drop n, tick := s.tick + n } ∧ accepted n s = [] ∧
      (s.Inv → s.status = true)

/-- A hold between events: with no reset and no byte offered, an IDLE block changes nothing. -/
def Obligations.HoldWhileNothingOffered : Prop :=
  ∀ (n : Nat) (s : State), s.phase = .idle → n ≤ s.inputs.length →
    (∀ i ∈ s.inputs.take n, i.rst = false ∧ i.rxValid = false) →
    run n s = .next { s with inputs := s.inputs.drop n, tick := s.tick + n }

/-- A waiting event ends as soon as the sink is ready: after any number of steps with the sink not ready, one
ready step transmits `tx_hold`, once, and returns to IDLE. -/
def Obligations.WaitingEventEndsWhenSinkReady : Prop :=
  ∀ (waits : List Inputs) (i : Inputs) (rest : List Inputs) (s : State), s.phase = .txWait →
    s.inputs = waits ++ i :: rest → (∀ w ∈ waits, w.rst = false ∧ w.txReady = false) →
    i.rst = false → i.txReady = true →
    ∃ t, run (waits.length + 1) s = .next t ∧ t.phase = .idle ∧ t.sent = s.sent ++ [s.txHold] ∧
      t.inputs = rest ∧ t.state = s.state.after s.curByte

/-- 40_event_cycle R70: the termination check runs after the branch effect. A sentinel accepted at each of the five
states first causes the branch effect of that state, and the event then ends with `state` 0 and `status` 0. -/
def Obligations.SentinelBranchesThenTerminates : Prop :=
  ∀ s : State, s.phase = .idle → s.now.rst = false → s.now.rxValid = true → s.now.rxData = 0x0D#8 →
    ∃ t, step s = .next t ∧ t.settled.state = .awaitingLength ∧ t.settled.status = false ∧
      t.settled.phase = .idle ∧
      match s.state with
      | .awaitingLength => t.settled.sent = s.sent ++ [0x0A#8]
      | .awaitingRed => t.cmpR = 0xF2#8 ∧ t.settled.sent = s.sent
      | .awaitingGreen => t.cmpG = 0xF2#8 ∧ t.settled.sent = s.sent
      | .awaitingBlue => t.cmpB = 0xF2#8 ∧ t.settled.sent = s.sent
      | .passthrough => t.settled.sent = s.sent ++ [0x0D#8]

/-- 40_event_cycle R71: one step of the machine, through the event word, the decoder and the entries' meanings, is
the step function as R71 writes it case by case, in every state and for all inputs. Both put the free values of
log 2 into `cur_byte` and `tx_hold` at a reset, where R97 leaves them unspecified. -/
def Obligations.StepIsTheSpecStep : Prop :=
  ∀ s : State, step s = .next (Reference.step Config.specPolicy s)

/-- The block raises no exception: every step of every state, every entry in every state, and every run of any
length, answers a next state. -/
def Obligations.EveryStepAnswersNext : Prop :=
  (∀ s : State, ∃ t, step s = .next t) ∧
  (∀ (i : Instr) (s : State), ∃ t, exec i s = .next t) ∧
  (∀ (n : Nat) (s : State), ∃ t, run n s = .next t)

/-! ## Ports and simultaneous inputs -/

/-- 10_state R28: the output ports, and when the two transfers happen. -/
def Obligations.OutputPorts : Prop :=
  ∀ s : State,
    (s.rxReady = true ↔ s.phase = .idle ∧ s.now.rst = false) ∧
    (s.txValid = true ↔ s.phase = .txWait ∧ s.now.rst = false) ∧
    (s.txValid = true → s.txData = s.txHold) ∧
    s.pwmR = s.cmpR ∧ s.pwmG = s.cmpG ∧ s.pwmB = s.cmpB ∧ s.statusOut = s.status ∧
    (s.rxTransfer = true ↔ s.now.rxValid = true ∧ s.rxReady = true) ∧
    (s.txTransfer = true ↔ s.txValid = true ∧ s.now.txReady = true)

/-- 60_exceptions R87: reset wins over acceptance and transmit, which are never both enabled, and a byte offered in
TXWAIT waits. What `resetStep` leaves in `cur_byte` and `tx_hold` is the model's free value, log 2. -/
def Obligations.SimultaneousInputs : Prop :=
  ∀ s : State,
    (s.now.rst = true → step s = .next s.consume.resetStep ∧ s.rxTransfer = false ∧ s.txTransfer = false) ∧
    ¬ (s.rxTransfer = true ∧ s.txTransfer = true) ∧
    (s.phase = .txWait → s.rxTransfer = false)

/-- What is offered on the receive port matters nowhere but in IDLE with no reset: two states that differ only in
it make the same step (40_event_cycle R60, R68; 70_reset R99). With `rst = 1` the spec leaves `cur_byte` and
`tx_hold` at any value after the step (R97, U4): that the two steps agree on them too is the model's choice, log 2,
which applies their free values to `tick` alone. -/
def Obligations.OfferedByteUnseenUnlessAccepting : Prop :=
  ∀ (s : State) (i j : Inputs) (rest : List Inputs), s.phase = .txWait ∨ i.rst = true →
    i.rst = j.rst → i.txReady = j.txReady →
    step { s with inputs := i :: rest } = step { s with inputs := j :: rest }

/-- `tx_ready` is no event: in IDLE two states that differ only in it make the same step (60_exceptions R86). With `rst = 1`,
that they agree on `cur_byte` and `tx_hold` too is the model's choice, log 2. -/
def Obligations.SinkReadyUnseenWhenIdle : Prop :=
  ∀ (s : State) (i j : Inputs) (rest : List Inputs), s.phase = .idle →
    i.rst = j.rst → i.rxValid = j.rxValid → i.rxData = j.rxData →
    step { s with inputs := i :: rest } = step { s with inputs := j :: rest }

/-- `status` has no protocol meaning: two states that differ only in it make steps that differ at most in it
(10_state R23). With `rst = 1`, that they agree on `cur_byte` and `tx_hold` is the model's choice, log 2. -/
def Obligations.StatusIsNeverRead : Prop :=
  ∀ (s : State) (x : Bool), ∃ (t : State) (y : Bool),
    step s = .next t ∧ step { s with status := x } = .next { t with status := y }

/-! ## Reset -/

/-- 10_state and 70_reset R97: what the state right after reset holds of the elements whose reset value the spec
gives. -/
def Obligations.ResetValues : Prop :=
  State.reset.state = .awaitingLength ∧ State.reset.status = false ∧ State.reset.phase = .idle ∧
  State.reset.cmpR = Config.chanResetR ∧ State.reset.cmpG = Config.chanResetG ∧ State.reset.cmpB = Config.chanResetB

/-- 70_reset R97: a step with `rst = 1` resets the six elements, and the ports are closed; `cur_byte` and `tx_hold`
are left open. -/
def Obligations.ResetStep : Prop :=
  ∀ s : State, s.now.rst = true →
    s.rxReady = false ∧ s.txValid = false ∧
    ∃ t, step s = .next t ∧ t.state = .awaitingLength ∧ t.status = false ∧ t.phase = .idle ∧
      t.cmpR = Config.chanResetR ∧ t.cmpG = Config.chanResetG ∧ t.cmpB = Config.chanResetB ∧
      t.sent = s.sent ∧ t.inputs = s.inputs.tail

/-- Reset forgets the event in progress (70_reset R97, R98): two states that differ in any of the eight elements make
the same reset step, and it transmits nothing. R97 and U4 leave `cur_byte` and `tx_hold` unspecified after it: that
the two steps agree on these is the model's choice, log 2, which applies their free values to `tick` alone. -/
def Obligations.ResetForgetsTheEvent : Prop :=
  ∀ s u : State, u.inputs = s.inputs → u.tick = s.tick → u.sent = s.sent → s.now.rst = true →
    ∃ t, step s = .next t ∧ step u = .next t ∧ t.sent = s.sent ∧ t.phase = .idle ∧ t.state = .awaitingLength

/-- 70_reset R98: a reset in TXWAIT abandons the event: its byte is transferred neither then nor later, however long
the run goes on with no byte offered, and its completion is not performed (`state` is 0 and `status` 0 whatever
`cur_byte` was). A colour entry has no such window: its accept step ends in IDLE. -/
def Obligations.ResetAbandonsWaitingEvent : Prop :=
  (∀ (n : Nat) (s : State) (i : Inputs) (rest : List Inputs), s.phase = .txWait → s.inputs = i :: rest →
    i.rst = true → n ≤ rest.length → (∀ j ∈ rest.take n, j.rxValid = false) →
    ∃ t, run (n + 1) s = .next t ∧ t.sent = s.sent ∧ t.phase = .idle ∧ t.state = .awaitingLength ∧
      t.status = false) ∧
  (∀ s : State, s.rxTransfer = true → s.state = .awaitingRed ∨ s.state = .awaitingGreen ∨ s.state = .awaitingBlue →
    ∃ t, step s = .next t ∧ t.phase = .idle)

/-- 70_reset R99: a byte offered during a reset step is not accepted by it; if it is still offered when `rst`
falls, it is accepted as byte 0 of a new frame. -/
def Obligations.ByteOfferedDuringReset : Prop :=
  ∀ (s : State) (i j : Inputs) (rest : List Inputs) (b : Byte), s.inputs = i :: j :: rest →
    i.rst = true → i.rxValid = true → i.rxData = b → j.rst = false → j.rxValid = true → j.rxData = b →
    s.acceptedNow = [] ∧
    ∃ t u, step s = .next t ∧ t.state = .awaitingLength ∧ t.phase = .idle ∧ t.acceptedNow = [b] ∧
      step t = .next u ∧ u.curByte = b ∧ u.txHold = b - 3#8 ∧ u.phase = .txWait ∧ u.sent = s.sent

/-! ## Invariants -/

/-- The invariant holds right after reset. -/
def Obligations.InvAtReset : Prop := State.reset.Inv

/-- Every step from a state that meets the invariant, in any environment, gives a state that meets it. -/
def Obligations.StepKeepsInv : Prop :=
  ∀ s t : State, s.Inv → step s = .next t → t.Inv

/-- 10_state R30: in every run of any environment from a reset state, `status` is 1 in TXWAIT; in IDLE it is 1 iff
a byte has been accepted since the last reset and the last accepted byte was not 0x0D; in particular `state ≠ 0`
in IDLE implies `status = 1`. -/
def Obligations.StatusTellsFrameInProgress : Prop :=
  ∀ (n : Nat) (s t : State), s.state = .awaitingLength → s.status = false → s.phase = .idle →
    run n s = .next t →
    (t.phase = .txWait → t.status = true) ∧
    (t.phase = .idle → (t.status = true ↔ ∃ b, (history n s []).getLast? = some b ∧ b ≠ 0x0D#8)) ∧
    (t.phase = .idle → t.state ≠ .awaitingLength → t.status = true)

/-- 10_state R31 (the source's P1): in every run of any environment from a reset state, `state` in IDLE is
`min(k, 4)`, where `k` counts the bytes accepted since the last reset or sentinel. -/
def Obligations.StateCountsBytesOfFrame : Prop :=
  ∀ (n : Nat) (s t : State), s.state = .awaitingLength → s.status = false → s.phase = .idle →
    run n s = .next t → t.phase = .idle →
    t.state.code.toNat = min (sinceSentinel (history n s [])) 4

/-! ## Whole-machine rules -/

/-- A compare register changes only in a reset step or in the step that accepts the byte of its own position (a
receive transfer, in IDLE), and then to `255 − b` (10_state R20, 40_event_cycle R65, 10_state R32). -/
def Obligations.CompareRegistersWrittenOnlyByTheirEntries : Prop :=
  ∀ s t : State, step s = .next t → s.now.rst = false →
    (t.cmpR ≠ s.cmpR → s.rxTransfer = true ∧ s.phase = .idle ∧ s.state = .awaitingRed ∧
      t.cmpR = 255#8 - s.now.rxData) ∧
    (t.cmpG ≠ s.cmpG → s.rxTransfer = true ∧ s.phase = .idle ∧ s.state = .awaitingGreen ∧
      t.cmpG = 255#8 - s.now.rxData) ∧
    (t.cmpB ≠ s.cmpB → s.rxTransfer = true ∧ s.phase = .idle ∧ s.state = .awaitingBlue ∧
      t.cmpB = 255#8 - s.now.rxData)

/-- 60_exceptions R90: only a sentinel or a reset returns `state` to 0. -/
def Obligations.OnlySentinelOrResetReturnsToStart : Prop :=
  ∀ s t : State, step s = .next t → s.state ≠ .awaitingLength → t.state = .awaitingLength →
    s.now.rst = true ∨ t.curByte = 0x0D#8 ∧ t.phase = .idle ∧ t.status = false

/-- `status` is set only by an acceptance and cleared only by a reset or a completion on the sentinel (10_state
R22). -/
def Obligations.StatusSetAndCleared : Prop :=
  ∀ s t : State, step s = .next t →
    (s.status = false → t.status = true → s.rxTransfer = true) ∧
    (s.status = true → t.status = false → s.now.rst = true ∨ t.curByte = 0x0D#8 ∧ t.phase = .idle)

/-- The transmit channel grows by at most one byte a step, the `tx_hold` of a transmit transfer; and an event
leaves TXWAIT only by its transfer or by a reset (40_event_cycle R66, 70_reset R107). -/
def Obligations.OneTransferAtATime : Prop :=
  ∀ s t : State, step s = .next t →
    t.sent = (if s.txTransfer then s.sent ++ [s.txHold] else s.sent) ∧
    (s.phase = .txWait → t.phase = .idle → s.now.rst = true ∨ t.sent = s.sent ++ [s.txHold])

/-! ## Runs -/

/-- Any run without reset, in any environment and from any state, is observed to do what the accepted bytes do
when each is handled as one whole event, in order: transmitted bytes in acceptance order, at most one a byte, and
all effects of an event before the next (20_memory R41, R42; 40_event_cycle R59; 70_reset R109). An event still
waiting to transmit is carried to its end on both sides. -/
def Obligations.RunIsAFoldOfEvents : Prop :=
  ∀ (n : Nat) (s t : State), n ≤ s.inputs.length → (∀ i ∈ s.inputs.take n, i.rst = false) →
    run n s = .next t →
    t.settled.observe = (accepted n s).foldl Observation.event s.settled.observe

/-- The source's P2, P3, P4 as 90_conflicts C1 resolves them: a run that has accepted exactly a well-formed frame
and is back in IDLE has transmitted the length echo, the payload and the terminator, in order; holds the three
compare values; and stands at the start of a frame. -/
def Obligations.WholeFrameOutcome : Prop :=
  ∀ (k : Nat) (s t : State) (n r g b : Byte) (payload : List Byte),
    s.phase = .idle → s.state = .awaitingLength → k ≤ s.inputs.length → (∀ i ∈ s.inputs.take k, i.rst = false) →
    frameWf n r g b payload → run k s = .next t → accepted k s = frameBytes n r g b payload → t.phase = .idle →
    t.sent = s.sent ++ [n - 3#8] ++ payload ++ [0x0D#8] ∧
    t.cmpR = 255#8 - r ∧ t.cmpG = 255#8 - g ∧ t.cmpB = 255#8 - b ∧
    t.state = .awaitingLength ∧ t.status = false

/-- Every byte sequence can be played from every IDLE state: with the bytes offered in order and the sink ready
after any finite wait, during which it sees other bytes offered, the run accepts exactly these bytes, uses the
script up, ends in IDLE and is observed to do what the events do (40_event_cycle R72, 70_reset R100). -/
def Obligations.EveryByteSequencePlays : Prop :=
  ∀ (play : List (Byte × List Byte)) (s : State) (rest : List Inputs), s.phase = .idle →
    s.inputs = playScript s.state play ++ rest →
    accepted (playScript s.state play).length s = play.map Prod.fst ∧
    ∃ t, run (playScript s.state play).length s = .next t ∧ t.phase = .idle ∧ t.inputs = rest ∧
      t.observe = (play.map Prod.fst).foldl Observation.event s.observe

/-- A byte that arrives while an event waits to transmit, and is held on the receive port, is not lost by the block:
it is accepted once, in the step after the transfer (40_event_cycle R68, 60_exceptions R87, 70_reset R105). -/
def Obligations.HeldByteAcceptedAfterTransfer : Prop :=
  ∀ (n : Nat) (s : State) (b : Byte) (rest : List Inputs), s.phase = .txWait →
    s.inputs = List.replicate n (offering b) ++ { offering b with txReady := true } :: offering b :: rest →
    accepted (n + 1) s = [] ∧ accepted (n + 2) s = [b] ∧
    ∃ t, run (n + 2) s = .next t ∧ t.curByte = b ∧ t.sent = s.sent ++ [s.txHold] ∧ t.inputs = rest

/-- 70_reset R103: from any IDLE state a 0x0D, once its event has ended, leaves the block at the start of a frame
(a lone one at the start of a frame transmits 0x0A), and the next byte is byte 0. -/
def Obligations.SentinelResynchronises : Prop :=
  ∀ (s : State) (waits : List Byte) (b : Byte) (rest : List Inputs), s.phase = .idle →
    s.inputs = eventScript s.state 0x0D#8 waits ++ offering b :: rest →
    ∃ t u, run (eventScript s.state 0x0D#8 waits).length s = .next t ∧
      t.state = .awaitingLength ∧ t.status = false ∧ t.phase = .idle ∧
      (s.state = .awaitingLength → t.sent = s.sent ++ [0x0A#8]) ∧
      step t = .next u ∧ u.curByte = b ∧ u.txHold = b - 3#8 ∧ u.phase = .txWait

/-! ## The readings the spec does not take -/

/-- 90_conflicts C1 and 93_implementation_defined U12, the losing reading: with SENTINEL_DISPATCHES false, a
sentinel only ends the frame: no transmit and no compare write, at any position. -/
def Obligations.SentinelUnderLosingReading : Prop :=
  ∀ (p : Config.Policy) (s : State), p.sentinelDispatches = false → s.phase = .idle → s.now.rst = false →
    s.now.rxValid = true → s.now.rxData = 0x0D#8 →
    Reference.step p s =
      { s.consume with state := .awaitingLength, status := false, curByte := 0x0D#8 }

/-- The two readings matter only at a sentinel and at a declared length below 3: a step that accepts neither is
the spec's step under every policy. -/
def Obligations.PoliciesDifferOnlyAtTheirPoints : Prop :=
  ∀ (p : Config.Policy) (s : State),
    (s.rxTransfer = true → s.now.rxData ≠ 0x0D#8 ∧ (s.state = .awaitingLength → 3 ≤ s.now.rxData.toNat)) →
    step s = .next (Reference.step p s)
end

