-- ==== Sys2Proof/Laws/Decode.lean ====
section
/-! SUPPORT. The layout of event words and the codes of `state`. -/

namespace Sys2Proof

@[simp] theorem FrameState.ofCode_code (st : FrameState) : FrameState.ofCode st.code = some st := by
  cases st <;> rfl

/-- `s` of a word put together from a code and a byte. -/
theorem evState_append (c : BitVec 3) (b : Byte) : evState (c ++ b) = c := by
  have h : ∀ i, (c ++ b : EventWord).getLsbD (8 + i) = c.getLsbD i := fun i => by
    have := BitVec.getLsbD_append (x := c) (y := b) (i := 8 + i)
    simpa using this
  apply BitVec.eq_of_getLsbD_eq
  intro i hi
  simp [evState, h, hi]

/-- `d` of a word put together from a code and a byte. -/
theorem evData_append (c : BitVec 3) (b : Byte) : evData (c ++ b) = b := by
  apply BitVec.eq_of_getLsbD_eq
  intro i hi
  have := BitVec.getLsbD_append (x := c) (y := b) (i := i)
  simp only [evData, BitVec.getLsbD_extractLsb', hi, decide_true, Bool.true_and, Nat.zero_add]
  simpa [hi] using this

/-- The mask 0x700 keeps the code and clears the byte. -/
theorem mask_append (c : BitVec 3) (b : Byte) : (c ++ b : EventWord) &&& 0x700#11 = c ++ 0#8 := by
  have h7 : ∀ i < 11, (0x700#11).getLsbD i = decide (8 ≤ i) := by decide
  apply BitVec.eq_of_getLsbD_eq
  intro i hi
  have h1 := BitVec.getLsbD_append (x := c) (y := b) (i := i)
  have h2 := BitVec.getLsbD_append (x := c) (y := 0#8) (i := i)
  rw [BitVec.getLsbD_and, h7 i hi]
  refine (congrArg₂ and h1 rfl).trans (Eq.trans ?_ h2.symm)
  by_cases h8 : i < 8
  · simp [h8]
  · simp [h8]
    omega

@[simp] theorem evState_eventWord (st : FrameState) (b : Byte) : evState (eventWord st b) = st.code :=
  evState_append st.code b

@[simp] theorem evData_eventWord (st : FrameState) (b : Byte) : evData (eventWord st b) = b :=
  evData_append st.code b

/-- Decoding a formed event word never refuses (30_encoding R53). -/
theorem decode_eventWord (st : FrameState) (b : Byte) :
    decode (eventWord st b) =
      .ok (if b = Config.sentinel then termEntry st else dataEntry st b) := by
  simp [decode]

/-- The byte test takes the data row of `st`. -/
theorem decode_data {b : Byte} (st : FrameState) (h : b ≠ 0x0D#8) :
    decode (eventWord st b) = .ok (dataEntry st b) := by
  rw [decode_eventWord, if_neg h]

/-- The byte test takes the terminating row of `st`. -/
theorem decode_term (st : FrameState) : decode (eventWord st 0x0D#8) = .ok (termEntry st) := by
  rw [decode_eventWord, if_pos rfl]

end Sys2Proof
end

