-- ==== Sys2Proof/Laws/State.lean ====
section
/-! SUPPORT. One lemma per field per update of State, so that no later proof unfolds a record update. -/

namespace Sys2Proof.Machine

/-! ## accept -/

@[simp] theorem State.accept_state (b : Byte) (s : State) : (s.accept b).state = s.state := rfl
@[simp] theorem State.accept_cmpR (b : Byte) (s : State) : (s.accept b).cmpR = s.cmpR := rfl
@[simp] theorem State.accept_cmpG (b : Byte) (s : State) : (s.accept b).cmpG = s.cmpG := rfl
@[simp] theorem State.accept_cmpB (b : Byte) (s : State) : (s.accept b).cmpB = s.cmpB := rfl
@[simp] theorem State.accept_status (b : Byte) (s : State) : (s.accept b).status = true := rfl
@[simp] theorem State.accept_phase (b : Byte) (s : State) : (s.accept b).phase = s.phase := rfl
@[simp] theorem State.accept_curByte (b : Byte) (s : State) : (s.accept b).curByte = b := rfl
@[simp] theorem State.accept_txHold (b : Byte) (s : State) : (s.accept b).txHold = s.txHold := rfl
@[simp] theorem State.accept_inputs (b : Byte) (s : State) : (s.accept b).inputs = s.inputs := rfl
@[simp] theorem State.accept_sent (b : Byte) (s : State) : (s.accept b).sent = s.sent := rfl
@[simp] theorem State.accept_tick (b : Byte) (s : State) : (s.accept b).tick = s.tick := rfl

/-! ## loadTransmit -/

@[simp] theorem State.loadTransmit_state (v : Byte) (s : State) : (s.loadTransmit v).state = s.state := rfl
@[simp] theorem State.loadTransmit_cmpR (v : Byte) (s : State) : (s.loadTransmit v).cmpR = s.cmpR := rfl
@[simp] theorem State.loadTransmit_cmpG (v : Byte) (s : State) : (s.loadTransmit v).cmpG = s.cmpG := rfl
@[simp] theorem State.loadTransmit_cmpB (v : Byte) (s : State) : (s.loadTransmit v).cmpB = s.cmpB := rfl
@[simp] theorem State.loadTransmit_status (v : Byte) (s : State) : (s.loadTransmit v).status = s.status := rfl
@[simp] theorem State.loadTransmit_phase (v : Byte) (s : State) : (s.loadTransmit v).phase = .txWait := rfl
@[simp] theorem State.loadTransmit_curByte (v : Byte) (s : State) : (s.loadTransmit v).curByte = s.curByte := rfl
@[simp] theorem State.loadTransmit_txHold (v : Byte) (s : State) : (s.loadTransmit v).txHold = v := rfl
@[simp] theorem State.loadTransmit_inputs (v : Byte) (s : State) : (s.loadTransmit v).inputs = s.inputs := rfl
@[simp] theorem State.loadTransmit_sent (v : Byte) (s : State) : (s.loadTransmit v).sent = s.sent := rfl
@[simp] theorem State.loadTransmit_tick (v : Byte) (s : State) : (s.loadTransmit v).tick = s.tick := rfl

/-! ## setRed -/

@[simp] theorem State.setRed_state (v : Byte) (s : State) : (s.setRed v).state = s.state := rfl
@[simp] theorem State.setRed_cmpR (v : Byte) (s : State) : (s.setRed v).cmpR = v := rfl
@[simp] theorem State.setRed_cmpG (v : Byte) (s : State) : (s.setRed v).cmpG = s.cmpG := rfl
@[simp] theorem State.setRed_cmpB (v : Byte) (s : State) : (s.setRed v).cmpB = s.cmpB := rfl
@[simp] theorem State.setRed_status (v : Byte) (s : State) : (s.setRed v).status = s.status := rfl
@[simp] theorem State.setRed_phase (v : Byte) (s : State) : (s.setRed v).phase = s.phase := rfl
@[simp] theorem State.setRed_curByte (v : Byte) (s : State) : (s.setRed v).curByte = s.curByte := rfl
@[simp] theorem State.setRed_txHold (v : Byte) (s : State) : (s.setRed v).txHold = s.txHold := rfl
@[simp] theorem State.setRed_inputs (v : Byte) (s : State) : (s.setRed v).inputs = s.inputs := rfl
@[simp] theorem State.setRed_sent (v : Byte) (s : State) : (s.setRed v).sent = s.sent := rfl
@[simp] theorem State.setRed_tick (v : Byte) (s : State) : (s.setRed v).tick = s.tick := rfl

/-! ## setGreen -/

@[simp] theorem State.setGreen_state (v : Byte) (s : State) : (s.setGreen v).state = s.state := rfl
@[simp] theorem State.setGreen_cmpR (v : Byte) (s : State) : (s.setGreen v).cmpR = s.cmpR := rfl
@[simp] theorem State.setGreen_cmpG (v : Byte) (s : State) : (s.setGreen v).cmpG = v := rfl
@[simp] theorem State.setGreen_cmpB (v : Byte) (s : State) : (s.setGreen v).cmpB = s.cmpB := rfl
@[simp] theorem State.setGreen_status (v : Byte) (s : State) : (s.setGreen v).status = s.status := rfl
@[simp] theorem State.setGreen_phase (v : Byte) (s : State) : (s.setGreen v).phase = s.phase := rfl
@[simp] theorem State.setGreen_curByte (v : Byte) (s : State) : (s.setGreen v).curByte = s.curByte := rfl
@[simp] theorem State.setGreen_txHold (v : Byte) (s : State) : (s.setGreen v).txHold = s.txHold := rfl
@[simp] theorem State.setGreen_inputs (v : Byte) (s : State) : (s.setGreen v).inputs = s.inputs := rfl
@[simp] theorem State.setGreen_sent (v : Byte) (s : State) : (s.setGreen v).sent = s.sent := rfl
@[simp] theorem State.setGreen_tick (v : Byte) (s : State) : (s.setGreen v).tick = s.tick := rfl

/-! ## setBlue -/

@[simp] theorem State.setBlue_state (v : Byte) (s : State) : (s.setBlue v).state = s.state := rfl
@[simp] theorem State.setBlue_cmpR (v : Byte) (s : State) : (s.setBlue v).cmpR = s.cmpR := rfl
@[simp] theorem State.setBlue_cmpG (v : Byte) (s : State) : (s.setBlue v).cmpG = s.cmpG := rfl
@[simp] theorem State.setBlue_cmpB (v : Byte) (s : State) : (s.setBlue v).cmpB = v := rfl
@[simp] theorem State.setBlue_status (v : Byte) (s : State) : (s.setBlue v).status = s.status := rfl
@[simp] theorem State.setBlue_phase (v : Byte) (s : State) : (s.setBlue v).phase = s.phase := rfl
@[simp] theorem State.setBlue_curByte (v : Byte) (s : State) : (s.setBlue v).curByte = s.curByte := rfl
@[simp] theorem State.setBlue_txHold (v : Byte) (s : State) : (s.setBlue v).txHold = s.txHold := rfl
@[simp] theorem State.setBlue_inputs (v : Byte) (s : State) : (s.setBlue v).inputs = s.inputs := rfl
@[simp] theorem State.setBlue_sent (v : Byte) (s : State) : (s.setBlue v).sent = s.sent := rfl
@[simp] theorem State.setBlue_tick (v : Byte) (s : State) : (s.setBlue v).tick = s.tick := rfl

/-! ## complete -/

@[simp] theorem State.complete_state (c : Byte) (s : State) : (s.complete c).state = s.state.after c := rfl
@[simp] theorem State.complete_cmpR (c : Byte) (s : State) : (s.complete c).cmpR = s.cmpR := rfl
@[simp] theorem State.complete_cmpG (c : Byte) (s : State) : (s.complete c).cmpG = s.cmpG := rfl
@[simp] theorem State.complete_cmpB (c : Byte) (s : State) : (s.complete c).cmpB = s.cmpB := rfl
@[simp] theorem State.complete_status (c : Byte) (s : State) : (s.complete c).status = statusAtComplete c s.status := rfl
@[simp] theorem State.complete_phase (c : Byte) (s : State) : (s.complete c).phase = s.phase := rfl
@[simp] theorem State.complete_curByte (c : Byte) (s : State) : (s.complete c).curByte = s.curByte := rfl
@[simp] theorem State.complete_txHold (c : Byte) (s : State) : (s.complete c).txHold = s.txHold := rfl
@[simp] theorem State.complete_inputs (c : Byte) (s : State) : (s.complete c).inputs = s.inputs := rfl
@[simp] theorem State.complete_sent (c : Byte) (s : State) : (s.complete c).sent = s.sent := rfl
@[simp] theorem State.complete_tick (c : Byte) (s : State) : (s.complete c).tick = s.tick := rfl

/-! ## transmitStep -/

@[simp] theorem State.transmitStep_state (s : State) : s.transmitStep.state = s.state.after s.curByte := rfl
@[simp] theorem State.transmitStep_cmpR (s : State) : s.transmitStep.cmpR = s.cmpR := rfl
@[simp] theorem State.transmitStep_cmpG (s : State) : s.transmitStep.cmpG = s.cmpG := rfl
@[simp] theorem State.transmitStep_cmpB (s : State) : s.transmitStep.cmpB = s.cmpB := rfl
@[simp] theorem State.transmitStep_status (s : State) : s.transmitStep.status = statusAtComplete s.curByte s.status := rfl
@[simp] theorem State.transmitStep_phase (s : State) : s.transmitStep.phase = .idle := rfl
@[simp] theorem State.transmitStep_curByte (s : State) : s.transmitStep.curByte = s.curByte := rfl
@[simp] theorem State.transmitStep_txHold (s : State) : s.transmitStep.txHold = s.txHold := rfl
@[simp] theorem State.transmitStep_inputs (s : State) : s.transmitStep.inputs = s.inputs := rfl
@[simp] theorem State.transmitStep_sent (s : State) : s.transmitStep.sent = s.sent ++ [s.txHold] := rfl
@[simp] theorem State.transmitStep_tick (s : State) : s.transmitStep.tick = s.tick := rfl

/-! ## resetStep -/

@[simp] theorem State.resetStep_state (s : State) : s.resetStep.state = .awaitingLength := rfl
@[simp] theorem State.resetStep_cmpR (s : State) : s.resetStep.cmpR = Config.chanResetR := rfl
@[simp] theorem State.resetStep_cmpG (s : State) : s.resetStep.cmpG = Config.chanResetG := rfl
@[simp] theorem State.resetStep_cmpB (s : State) : s.resetStep.cmpB = Config.chanResetB := rfl
@[simp] theorem State.resetStep_status (s : State) : s.resetStep.status = false := rfl
@[simp] theorem State.resetStep_phase (s : State) : s.resetStep.phase = .idle := rfl
@[simp] theorem State.resetStep_curByte (s : State) : s.resetStep.curByte = Config.resetCurByte s.tick := rfl
@[simp] theorem State.resetStep_txHold (s : State) : s.resetStep.txHold = Config.resetTxHold s.tick := rfl
@[simp] theorem State.resetStep_inputs (s : State) : s.resetStep.inputs = s.inputs := rfl
@[simp] theorem State.resetStep_sent (s : State) : s.resetStep.sent = s.sent := rfl
@[simp] theorem State.resetStep_tick (s : State) : s.resetStep.tick = s.tick := rfl

/-! ## consume -/

@[simp] theorem State.consume_state (s : State) : s.consume.state = s.state := rfl
@[simp] theorem State.consume_cmpR (s : State) : s.consume.cmpR = s.cmpR := rfl
@[simp] theorem State.consume_cmpG (s : State) : s.consume.cmpG = s.cmpG := rfl
@[simp] theorem State.consume_cmpB (s : State) : s.consume.cmpB = s.cmpB := rfl
@[simp] theorem State.consume_status (s : State) : s.consume.status = s.status := rfl
@[simp] theorem State.consume_phase (s : State) : s.consume.phase = s.phase := rfl
@[simp] theorem State.consume_curByte (s : State) : s.consume.curByte = s.curByte := rfl
@[simp] theorem State.consume_txHold (s : State) : s.consume.txHold = s.txHold := rfl
@[simp] theorem State.consume_inputs (s : State) : s.consume.inputs = s.inputs.tail := rfl
@[simp] theorem State.consume_sent (s : State) : s.consume.sent = s.sent := rfl
@[simp] theorem State.consume_tick (s : State) : s.consume.tick = s.tick + 1 := rfl

/-! ## The inputs now -/

theorem State.now_of_cons {s : State} {i : Inputs} {rest : List Inputs} (h : s.inputs = i :: rest) : s.now = i := by
  simp [State.now, h]

theorem State.now_of_nil {s : State} (h : s.inputs = []) : s.now = Config.envInput s.tick := by
  simp [State.now, h]

/-- Of a state written out, whatever its other fields. -/
@[simp] theorem State.now_mk_cons (st : FrameState) (r g b : Byte) (x : Bool) (p : Phase) (c h : Byte) (i : Inputs)
    (rest : List Inputs) (sent : List Byte) (n : Nat) :
    State.now ⟨st, r, g, b, x, p, c, h, i :: rest, sent, n⟩ = i := rfl

/-- What the ports carry depends on the environment's fields alone. -/
theorem State.now_congr {s t : State} (hi : s.inputs = t.inputs) (ht : s.tick = t.tick) : s.now = t.now := by
  simp [State.now, hi, ht]

end Sys2Proof.Machine
end

