-- ==== Sys2Proof/Laws/Ops.lean ====
section
/-! SUPPORT. What each shared operation does, said once. -/

namespace Sys2Proof

@[simp] theorem FrameState.after_sentinel (st : FrameState) : st.after 0x0D#8 = .awaitingLength := if_pos rfl

theorem FrameState.after_data {c : Byte} (st : FrameState) (h : c ≠ 0x0D#8) : st.after c = st.next := if_neg h

/-- The position advances by one and saturates at 4 (10_state R18). -/
theorem FrameState.next_code (st : FrameState) : st.next.code.toNat = min (st.code.toNat + 1) 4 := by
  cases st <;> rfl

/-- No byte but the sentinel leads back to the start of a frame. -/
theorem FrameState.next_ne_awaitingLength (st : FrameState) : st.next ≠ .awaitingLength := by
  cases st <;> decide

namespace Machine

@[simp] theorem statusAtComplete_sentinel (st : Bool) : statusAtComplete 0x0D#8 st = false := if_pos rfl

theorem statusAtComplete_data {c : Byte} (st : Bool) (h : c ≠ 0x0D#8) : statusAtComplete c st = st := if_neg h

@[simp] theorem lenEcho_sentinel : lenEcho 0x0D#8 = 0x0A#8 := rfl

@[simp] theorem compareValue_sentinel : compareValue 0x0D#8 = 0xF2#8 := rfl

@[simp] theorem relayValue_eq (b : Byte) : relayValue b = b := rfl

/-- Completion with the sentinel ends the frame. -/
theorem State.complete_sentinel (s : State) :
    s.complete 0x0D#8 = { s with state := .awaitingLength, status := false } := rfl

/-- Completion with any other byte advances the position. -/
theorem State.complete_data (s : State) {c : Byte} (h : c ≠ 0x0D#8) :
    s.complete c = { s with state := s.state.next } := by
  simp [State.complete, FrameState.after_data _ h, statusAtComplete_data _ h]

/-- `255 − b = ~b` (42_color, shared laws). -/
theorem compareValue_eq_not (b : Byte) : compareValue b = ~~~b := by
  unfold compareValue
  bv_omega

theorem State.rxTransfer_iff (s : State) :
    s.rxTransfer = true ↔ s.now.rxValid = true ∧ s.phase = .idle ∧ s.now.rst = false := by
  simp [State.rxTransfer, State.rxReady]

theorem State.txTransfer_iff (s : State) :
    s.txTransfer = true ↔ s.phase = .txWait ∧ s.now.rst = false ∧ s.now.txReady = true := by
  simp [State.txTransfer, State.txValid, and_assoc]

/-- A settled state that waits for nothing is itself. -/
theorem State.settled_idle {s : State} (h : s.phase = .idle) : s.settled = s := by
  simp [State.settled, h]

theorem State.settled_txWait {s : State} (h : s.phase = .txWait) : s.settled = s.transmitStep := by
  simp [State.settled, h]

end Machine

end Sys2Proof
end

