-- ==== Sys2Proof/Laws/PerInstr.lean ====
section
/-! SUPPORT. Statements made entry by entry. -/

namespace Sys2Proof.Laws.EncodesOwnRow

/-- The word of a well-formed entry matches a row of the dispatch table that gives this entry (30_encoding R51). -/
def Statement (i : Instr) : Prop :=
  i.wf = true → ∃ r ∈ dispatchTable, r.admits (encode i) = true ∧ r.entry (evData (encode i)) = i

/-- A general row admits every word of its code. -/
theorem general_row {i : Instr} {r : Row} {c : BitVec 3} {b : Byte} (hr : r ∈ dispatchTable)
    (he : encode i = c ++ b) (hk : r.mask = 0x700#11) (hm : r.matchBits = c ++ 0#8) (hi : r.entry b = i) :
    ∃ r ∈ dispatchTable, r.admits (encode i) = true ∧ r.entry (evData (encode i)) = i :=
  ⟨r, hr, by simp [Row.admits, hk, hm, he, mask_append], by rw [he, evData_append, hi]⟩

theorem lenT : Statement .lenT := fun _ =>
  ⟨⟨"LEN_T", 0x00D#11, 0x7FF#11, fun _ => .lenT⟩, by simp [dispatchTable], by decide, rfl⟩

theorem len (b : Byte) : Statement (.len b) := fun _ =>
  general_row (r := ⟨"LEN", 0x000#11, 0x700#11, fun d => .len d⟩) (c := 0#3) (by simp [dispatchTable]) rfl rfl rfl rfl

theorem redT : Statement .redT := fun _ =>
  ⟨⟨"RED_T", 0x10D#11, 0x7FF#11, fun _ => .redT⟩, by simp [dispatchTable], by decide, rfl⟩

theorem red (b : Byte) : Statement (.red b) := fun _ =>
  general_row (r := ⟨"RED", 0x100#11, 0x700#11, fun d => .red d⟩) (c := 1#3) (by simp [dispatchTable]) rfl rfl rfl rfl

theorem grnT : Statement .grnT := fun _ =>
  ⟨⟨"GRN_T", 0x20D#11, 0x7FF#11, fun _ => .grnT⟩, by simp [dispatchTable], by decide, rfl⟩

theorem grn (b : Byte) : Statement (.grn b) := fun _ =>
  general_row (r := ⟨"GRN", 0x200#11, 0x700#11, fun d => .grn d⟩) (c := 2#3) (by simp [dispatchTable]) rfl rfl rfl rfl

theorem bluT : Statement .bluT := fun _ =>
  ⟨⟨"BLU_T", 0x30D#11, 0x7FF#11, fun _ => .bluT⟩, by simp [dispatchTable], by decide, rfl⟩

theorem blu (b : Byte) : Statement (.blu b) := fun _ =>
  general_row (r := ⟨"BLU", 0x300#11, 0x700#11, fun d => .blu d⟩) (c := 3#3) (by simp [dispatchTable]) rfl rfl rfl rfl

theorem passT : Statement .passT := fun _ =>
  ⟨⟨"PASS_T", 0x40D#11, 0x7FF#11, fun _ => .passT⟩, by simp [dispatchTable], by decide, rfl⟩

theorem pass (b : Byte) : Statement (.pass b) := fun _ =>
  general_row (r := ⟨"PASS", 0x400#11, 0x700#11, fun d => .pass d⟩) (c := 4#3) (by simp [dispatchTable]) rfl rfl rfl rfl

end Sys2Proof.Laws.EncodesOwnRow
end

