-- ==== Sys2Proof/Laws/Step.lean ====
section
/-! SUPPORT. What a step can do, said once: the one inversion lemma every invariant goes through. -/

namespace Sys2Proof.Machine

theorem step_reset {s : State} (h : s.now.rst = true) : step s = .next s.consume.resetStep := by
  simp [step, h]

theorem step_accept {s : State} {b : Byte} (h : s.rxTransfer = true) (hb : s.now.rxData = b) :
    step s = exec (if b = Config.sentinel then termEntry s.state else dataEntry s.state b) s.consume := by
  have hr : s.now.rst = false := (s.rxTransfer_iff.1 h).2.2
  simp [step, hr, h, State.selected, decode_eventWord, hb]

theorem step_transmit {s : State} (h : s.txTransfer = true) : step s = .next s.consume.transmitStep := by
  obtain ⟨hp, hr, _⟩ := s.txTransfer_iff.1 h
  have hx : s.rxTransfer = false := by simp [State.rxTransfer, State.rxReady, hp]
  simp [step, hr, hx, h]

theorem step_hold {s : State} (hr : s.now.rst = false) (hx : s.rxTransfer = false) (ht : s.txTransfer = false) :
    step s = .next s.consume := by
  simp [step, hr, hx, ht]

/-- What the accept step of the entry that `b` selects at `st` writes, branch by branch. -/
def acceptStep (b : Byte) (s : State) : State :=
  match s.state with
  | .awaitingLength => (s.accept b).loadTransmit (lenEcho b)
  | .awaitingRed => ((s.accept b).setRed (compareValue b)).complete b
  | .awaitingGreen => ((s.accept b).setGreen (compareValue b)).complete b
  | .awaitingBlue => ((s.accept b).setBlue (compareValue b)).complete b
  | .passthrough => (s.accept b).loadTransmit (relayValue b)

/-- The entry that `b` selects at the present `state` performs that accept step, sentinel or not. -/
theorem exec_selected (b : Byte) (s : State) :
    exec (if b = Config.sentinel then termEntry s.state else dataEntry s.state b) s = .next (acceptStep b s) := by
  by_cases hb : b = Config.sentinel
  · subst hb
    cases h : s.state <;> simp [exec, termEntry, acceptStep, h] <;> rfl
  · cases h : s.state <;> simp [hb, exec, dataEntry, acceptStep, h] <;> rfl

/-- Where the ports offer a byte in IDLE with no reset, a step is that accept step. -/
theorem step_offered {s : State} (hp : s.phase = .idle) (hr : s.now.rst = false) (hv : s.now.rxValid = true) :
    step s = .next (acceptStep s.now.rxData s.consume) := by
  rw [step_accept (s.rxTransfer_iff.2 ⟨hv, hp, hr⟩) rfl]
  exact exec_selected s.now.rxData s.consume

/-- In TXWAIT with the sink not ready a step holds. -/
theorem step_waits {s : State} (hp : s.phase = .txWait) (hr : s.now.rst = false) (ht : s.now.txReady = false) :
    step s = .next s.consume :=
  step_hold hr (by simp [State.rxTransfer, State.rxReady, hp]) (by simp [State.txTransfer, ht])

/-- An accept step leaves the environment's fields alone. -/
@[simp] theorem acceptStep_inputs (b : Byte) (s : State) : (acceptStep b s).inputs = s.inputs := by
  unfold acceptStep
  split <;> simp

@[simp] theorem acceptStep_sent (b : Byte) (s : State) : (acceptStep b s).sent = s.sent := by
  unfold acceptStep
  split <;> simp

@[simp] theorem acceptStep_tick (b : Byte) (s : State) : (acceptStep b s).tick = s.tick := by
  unfold acceptStep
  split <;> simp

/-- The four things a step does, each with its condition. -/
theorem step_cases {s t : State} (h : step s = .next t) :
    (s.now.rst = true ∧ t = s.consume.resetStep) ∨
    (s.rxTransfer = true ∧ t = acceptStep s.now.rxData s.consume) ∨
    (s.txTransfer = true ∧ t = s.consume.transmitStep) ∨
    (s.now.rst = false ∧ s.rxTransfer = false ∧ s.txTransfer = false ∧ t = s.consume) := by
  by_cases hr : s.now.rst = true
  · rw [step_reset hr] at h
    exact .inl ⟨hr, by cases h; rfl⟩
  by_cases hx : s.rxTransfer = true
  · have he := exec_selected s.now.rxData s.consume
    rw [step_accept hx rfl] at h
    simp only [State.consume_state] at he
    rw [he] at h
    exact .inr (.inl ⟨hx, by cases h; rfl⟩)
  by_cases ht : s.txTransfer = true
  · rw [step_transmit ht] at h
    exact .inr (.inr (.inl ⟨ht, by cases h; rfl⟩))
  · simp only [Bool.not_eq_true] at hr hx ht
    rw [step_hold hr hx ht] at h
    exact .inr (.inr (.inr ⟨hr, hx, ht, by cases h; rfl⟩))

/-! ## Runs -/

@[simp] theorem run_zero (s : State) : run 0 s = .next s := rfl

theorem run_succ {n : Nat} {s t : State} (h : step s = .next t) : run (n + 1) s = run n t := by
  simp [run, h]

/-- The host's runs are these runs. -/
theorem core_run_eq_run (n : Nat) (s : State) : Host.Core.run core n s = run n s := by
  induction n generalizing s with
  | zero => rfl
  | succ n ih =>
    simp only [Host.Core.run, run]
    cases h : core.step s with
    | next t =>
      have hs : step s = .next t := h
      rw [hs]
      exact ih t
    | fault r => exact nomatch r
    | refused r =>
      have hs : step s = .refused r := h
      rw [hs]
      rfl

/-- A run in two parts. -/
theorem run_add {m n : Nat} {s t : State} (h : run m s = .next t) : run (m + n) s = run n t := by
  induction m generalizing s with
  | zero =>
    cases h
    rw [Nat.zero_add]
  | succ m ih =>
    rw [Nat.add_right_comm]
    simp only [run] at h ⊢
    cases hs : step s with
    | next u => exact ih (by simpa [hs] using h)
    | fault r => simp [hs] at h
    | refused r => simp [hs] at h

end Sys2Proof.Machine
end

