-- ==== Sys2Proof/Tests/Slice0.lean ====
section
/-! SUPPORT. The model's own tests. Expected results are those of spec/95_test_vectors.md and of the words and
corner cases of 30_encoding R49 and of the entries' rules. -/

namespace Sys2Proof.Tests

open Sys2Proof.Machine

/-! ## The checks of WellFormed refuse an ill-formed term -/

theorem test_wf_len_sentinel : (Instr.len 0x0D#8).wf = false := by decide
theorem test_wf_red_sentinel : (Instr.red 0x0D#8).wf = false := by decide
theorem test_wf_grn_sentinel : (Instr.grn 0x0D#8).wf = false := by decide
theorem test_wf_blu_sentinel : (Instr.blu 0x0D#8).wf = false := by decide
theorem test_wf_pass_sentinel : (Instr.pass 0x0D#8).wf = false := by decide

theorem test_wf_neighbours : (Instr.len 0x0C#8).wf = true ∧ (Instr.pass 0x0E#8).wf = true := by decide

/-! ## Decoding of words written out bit by bit from the table of R49 -/

theorem test_decode_lenT : decode 0b00000001101#11 = .ok .lenT := by rfl
theorem test_decode_len : decode 0b00000000111#11 = .ok (.len 0x07#8) := by rfl
theorem test_decode_redT : decode 0b00100001101#11 = .ok .redT := by rfl
theorem test_decode_red : decode 0b00100001100#11 = .ok (.red 0x0C#8) := by rfl
theorem test_decode_grnT : decode 0b01000001101#11 = .ok .grnT := by rfl
theorem test_decode_grn : decode 0b01000000001#11 = .ok (.grn 0x01#8) := by rfl
theorem test_decode_bluT : decode 0b01100001101#11 = .ok .bluT := by rfl
theorem test_decode_blu : decode 0b01110000000#11 = .ok (.blu 0x80#8) := by rfl
theorem test_decode_passT : decode 0b10000001101#11 = .ok .passT := by rfl
theorem test_decode_pass : decode 0b10011111111#11 = .ok (.pass 0xFF#8) := by rfl

theorem test_decode_reserved : decode 0b10100001101#11 = .error (.reservedState 0b101#3) := by rfl
theorem test_encode_blu : encode (.blu 0x7F#8) = 0x37F#11 := by decide
theorem test_table_word : decodeTableWord 16 0x441 = some (.pass 0x41#8) := by decide
theorem test_table_word_wide : decodeTableWord 16 0x847 = none := by decide
theorem test_phase_codes : Phase.code .idle = 0#1 ∧ Phase.code .txWait = 1#1 := by decide

/-! ## One step -/

/-- The state a step answers. -/
def answer : Host.Outcome State Fault Refusal → Option State
  | .next s => some s
  | .fault _ => none
  | .refused _ => none

/-- A small state between events, with different values in its registers. -/
def demo (st : FrameState) (ins : List Inputs) : State where
  state := st
  cmpR := 0x11#8
  cmpG := 0x22#8
  cmpB := 0x33#8
  status := true
  phase := .idle
  curByte := 0x44#8
  txHold := 0x66#8
  inputs := ins
  sent := [0x77#8]
  tick := 9

/-- The same, waiting to transmit `v` for the event of `b`. -/
def waiting (st : FrameState) (b v : Byte) (ins : List Inputs) : State :=
  { demo st ins with phase := .txWait, curByte := b, txHold := v }

/-- A reset step at which `b` is offered. -/
def resetting (b : Byte) : Inputs := { rst := true, rxValid := true, rxData := b, txReady := true }

theorem test_len : answer (step (demo .awaitingLength [offering 0x07#8])) =
    some { demo .awaitingLength [] with phase := .txWait, curByte := 0x07#8, txHold := 0x04#8, tick := 10 } := by decide
theorem test_len_wraps : (answer (step (demo .awaitingLength [offering 0x01#8]))).map (·.txHold) = some 0xFE#8 := by decide
theorem test_len_transmits : answer (step (waiting .awaitingLength 0x07#8 0x04#8 [sinkReady])) =
    some { demo .awaitingRed [] with curByte := 0x07#8, txHold := 0x04#8, sent := [0x77#8, 0x04#8], tick := 10 } := by
  decide
theorem test_lenT : (answer (step (demo .awaitingLength [offering 0x0D#8]))).map (fun s => (s.txHold, s.phase, s.status)) =
    some (0x0A#8, .txWait, true) := by decide
theorem test_lenT_transmits : answer (step (waiting .awaitingLength 0x0D#8 0x0A#8 [sinkReady])) =
    some { demo .awaitingLength [] with
      status := false, curByte := 0x0D#8, txHold := 0x0A#8, sent := [0x77#8, 0x0A#8], tick := 10 } := by decide
theorem test_red : answer (step (demo .awaitingRed [offering 0x00#8])) =
    some { demo .awaitingGreen [] with curByte := 0x00#8, cmpR := 0xFF#8, tick := 10 } := by decide
theorem test_redT : answer (step (demo .awaitingRed [offering 0x0D#8])) =
    some { demo .awaitingLength [] with curByte := 0x0D#8, cmpR := 0xF2#8, status := false, tick := 10 } := by decide
theorem test_grn : answer (step (demo .awaitingGreen [offering 0x01#8])) =
    some { demo .awaitingBlue [] with curByte := 0x01#8, cmpG := 0xFE#8, tick := 10 } := by decide
theorem test_grnT : answer (step (demo .awaitingGreen [offering 0x0D#8])) =
    some { demo .awaitingLength [] with curByte := 0x0D#8, cmpG := 0xF2#8, status := false, tick := 10 } := by decide
theorem test_blu : answer (step (demo .awaitingBlue [offering 0x7F#8])) =
    some { demo .passthrough [] with curByte := 0x7F#8, cmpB := 0x80#8, tick := 10 } := by decide
theorem test_bluT : answer (step (demo .awaitingBlue [offering 0x0D#8])) =
    some { demo .awaitingLength [] with curByte := 0x0D#8, cmpB := 0xF2#8, status := false, tick := 10 } := by decide
theorem test_pass : answer (step (demo .passthrough [offering 0x41#8])) =
    some { demo .passthrough [] with phase := .txWait, curByte := 0x41#8, txHold := 0x41#8, tick := 10 } := by decide
theorem test_pass_transmits : answer (step (waiting .passthrough 0x41#8 0x41#8 [sinkReady])) =
    some { demo .passthrough [] with curByte := 0x41#8, txHold := 0x41#8, sent := [0x77#8, 0x41#8], tick := 10 } := by
  decide
theorem test_passT : (answer (step (demo .passthrough [offering 0x0D#8]))).map (fun s => (s.txHold, s.state)) =
    some (0x0D#8, .passthrough) := by decide
theorem test_passT_transmits : answer (step (waiting .passthrough 0x0D#8 0x0D#8 [sinkReady])) =
    some { demo .awaitingLength [] with
      status := false, curByte := 0x0D#8, txHold := 0x0D#8, sent := [0x77#8, 0x0D#8], tick := 10 } := by decide

/-- E3: a byte offered in TXWAIT with the sink not ready is not accepted. -/
theorem test_hold : answer (step (waiting .passthrough 0x41#8 0x41#8 [offering 0x55#8])) =
    some { waiting .passthrough 0x41#8 0x41#8 [] with tick := 10 } := by decide

/-- E2 and E5: a reset step transmits and accepts nothing. -/
theorem test_reset : (answer (step (waiting .passthrough 0x07#8 0x04#8 [resetting 0x55#8]))).map
    (fun s => (s.state, s.status, s.phase, s.sent)) = some (.awaitingLength, false, .idle, [0x77#8]) := by decide
theorem test_reset_compare : (answer (step (waiting .passthrough 0x07#8 0x04#8 [resetting 0x55#8]))).map (·.cmpG) =
    some Config.chanResetG := by rfl

/-- The very next step after `withFetchWord` runs the word's entry, right after reset. -/
theorem test_fetch_word : step (State.reset.withFetchWord 16 0x441) =
    exec (.pass 0x41#8) (State.reset.withFetchWord 16 0x441).consume := by rfl

/-! ## Witnesses: for each statement with hypotheses, a state and operands that meet them together -/

theorem witness_DecodeOfEncode : (Instr.len 0xFF#8).wf = true := by decide
theorem witness_EncodeOfDecode : decode 0x37F#11 = .ok (.blu 0x7F#8) := by rfl
theorem witness_ReservedWordsHaveNoEntry : 4 < (evState 0x500#11).toNat ∧ 4 < (evState 0x7FF#11).toNat := by decide
theorem witness_EntriesOfAFrame : frameWf 0x07#8 0x00#8 0xFF#8 0x80#8 [0x0C#8, 0x0E#8] := by
  unfold frameWf
  decide

/-- `rst` and `tx_ready` as an entry's next state sees them in an environment that drives `i`. -/
def inEnvironment (o : Host.Outcome State Fault Refusal) (i : Inputs) : Option (Bool × Bool) :=
  (answer o).map fun t =>
    let u : State := { t with inputs := [i], tick := 0 }
    (u.now.rst, u.now.txReady)

theorem witness_LenEvent : 0x00#8 ≠ 0x0D#8 ∧ (demo .awaitingLength []).state = .awaitingLength ∧
    inEnvironment (exec (.len 0x00#8) (demo .awaitingLength [])) (offering 0x55#8) = some (false, false) ∧
    inEnvironment (exec (.len 0x00#8) (demo .awaitingLength [])) sinkReady = some (false, true) := by decide
theorem witness_LenTEvent : (demo .awaitingLength []).state = .awaitingLength ∧
    inEnvironment (exec .lenT (demo .awaitingLength [])) (offering 0x55#8) = some (false, false) ∧
    inEnvironment (exec .lenT (demo .awaitingLength [])) sinkReady = some (false, true) := by decide
theorem witness_PassEvent : 0xFF#8 ≠ 0x0D#8 ∧ (demo .passthrough []).state = .passthrough ∧
    inEnvironment (exec (.pass 0xFF#8) (demo .passthrough [])) (offering 0x55#8) = some (false, false) ∧
    inEnvironment (exec (.pass 0xFF#8) (demo .passthrough [])) sinkReady = some (false, true) := by decide
theorem witness_PassTEvent : (demo .passthrough []).state = .passthrough ∧
    inEnvironment (exec .passT (demo .passthrough [])) (offering 0x55#8) = some (false, false) ∧
    inEnvironment (exec .passT (demo .passthrough [])) sinkReady = some (false, true) := by decide
theorem witness_RedEvent : 0x0C#8 ≠ 0x0D#8 ∧ (demo .awaitingRed []).state = .awaitingRed := by decide
theorem witness_GrnEvent : 0xFF#8 ≠ 0x0D#8 ∧ (demo .awaitingGreen []).state = .awaitingGreen := by decide
theorem witness_BluEvent : 0x0E#8 ≠ 0x0D#8 ∧ (demo .awaitingBlue []).state = .awaitingBlue := by decide
theorem witness_RedTEvent : (demo .awaitingRed []).state = .awaitingRed := by decide
theorem witness_GrnTEvent : (demo .awaitingGreen []).state = .awaitingGreen := by decide
theorem witness_BluTEvent : (demo .awaitingBlue []).state = .awaitingBlue := by decide

/-- Offered a byte in IDLE with no reset, at each of the five positions, and a sentinel. -/
def offeredAt (st : FrameState) (b : Byte) : Bool :=
  let s := demo st [offering b]
  s.phase == .idle && !s.now.rst && s.now.rxValid && s.now.rxData == b && s.state == st

theorem witness_StepRunsTheDecodedEntry : offeredAt .passthrough 0x41#8 = true ∧
    decode (eventWord .passthrough 0x41#8) = .ok (.pass 0x41#8) := ⟨by decide, by rfl⟩
theorem witness_BranchDependsOnStateOnly : offeredAt .awaitingLength 0x0D#8 = true ∧
    offeredAt .awaitingRed 0x00#8 = true ∧ offeredAt .awaitingGreen 0xFF#8 = true ∧
    offeredAt .awaitingBlue 0x0D#8 = true ∧ offeredAt .passthrough 0x0D#8 = true := by decide
theorem witness_AcceptanceLatchesTheByte : offeredAt .awaitingRed 0x0D#8 = true ∧
    offeredAt .awaitingRed 0x0C#8 = true ∧ offeredAt .passthrough 0x0D#8 = true := by decide
theorem witness_SentinelBranchesThenTerminates : offeredAt .awaitingLength 0x0D#8 = true ∧
    offeredAt .awaitingRed 0x0D#8 = true ∧ offeredAt .awaitingGreen 0x0D#8 = true ∧
    offeredAt .awaitingBlue 0x0D#8 = true ∧ offeredAt .passthrough 0x0D#8 = true := by decide
theorem witness_SentinelUnderLosingReading :
    (Config.Policy.mk false .wrap).sentinelDispatches = false ∧ offeredAt .awaitingRed 0x0D#8 = true := by decide
theorem witness_PoliciesDifferOnlyAtTheirPoints : (demo .awaitingLength [offering 0x03#8]).rxTransfer = true ∧
    (demo .awaitingLength [offering 0x03#8]).now.rxData ≠ 0x0D#8 ∧
    3 ≤ (demo .awaitingLength [offering 0x03#8]).now.rxData.toNat := by decide
theorem witness_TransmitStep : let s := waiting .passthrough 0x0D#8 0x0D#8 [sinkReady]
    s.now.rst = false ∧ s.phase = .txWait ∧ s.now.txReady = true ∧ s.curByte = 0x0D#8 := by decide
theorem witness_TransmitStep_data : let s := waiting .awaitingLength 0x00#8 0xFD#8 [sinkReady]
    s.now.rst = false ∧ s.phase = .txWait ∧ s.now.txReady = true ∧ s.curByte ≠ 0x0D#8 := by decide
theorem witness_CompletionCheck : (0x0D#8 : Byte) = 0x0D#8 ∧ (0x0C#8 : Byte) ≠ 0x0D#8 := by decide
theorem witness_HoldWhileSinkNotReady : let s := waiting .passthrough 0x41#8 0x41#8 [offering 0x55#8, offering 0x56#8]
    s.phase = .txWait ∧ 2 ≤ s.inputs.length ∧ (∀ i ∈ s.inputs.take 2, i.rst = false ∧ i.txReady = false) ∧
    s.status = true ∧ s.state = .passthrough ∧ s.txHold = relayValue s.curByte := by decide
theorem witness_HoldWhileNothingOffered : let s := demo .awaitingRed [sinkReady, sinkReady]
    s.phase = .idle ∧ 2 ≤ s.inputs.length ∧ (∀ i ∈ s.inputs.take 2, i.rst = false ∧ i.rxValid = false) := by decide
theorem witness_WaitingEventEndsWhenSinkReady :
    let s := waiting .awaitingLength 0x07#8 0x04#8 ([offering 0x55#8] ++ sinkReady :: [])
    s.phase = .txWait ∧ s.inputs = [offering 0x55#8] ++ sinkReady :: [] ∧
    (∀ w ∈ [offering 0x55#8], w.rst = false ∧ w.txReady = false) ∧ sinkReady.rst = false ∧
    sinkReady.txReady = true := by decide
theorem witness_OutputPorts : (waiting .passthrough 0x41#8 0x41#8 [sinkReady]).txValid = true := by decide
theorem witness_SimultaneousInputs : (demo .awaitingLength [resetting 0x07#8]).now.rst = true ∧
    (waiting .passthrough 0x41#8 0x41#8 []).phase = .txWait := by decide
theorem witness_OfferedByteUnseenUnlessAccepting :
    ((waiting .passthrough 0x41#8 0x41#8 []).phase = .txWait ∧
      (offering 0x55#8).rst = (offering 0x56#8).rst ∧ (offering 0x55#8).txReady = (offering 0x56#8).txReady) ∧
    ((resetting 0x55#8).rst = true ∧ (resetting 0x55#8).rst = (resetting 0x56#8).rst ∧
      (resetting 0x55#8).txReady = (resetting 0x56#8).txReady) := by decide
theorem witness_SinkReadyUnseenWhenIdle : let j := { offering 0x55#8 with txReady := true }
    (demo .awaitingRed []).phase = .idle ∧ (offering 0x55#8).rst = j.rst ∧ (offering 0x55#8).rxValid = j.rxValid ∧
    (offering 0x55#8).rxData = j.rxData ∧ (offering 0x55#8).txReady ≠ j.txReady := by decide
theorem witness_ResetStep : (demo .passthrough [resetting 0x07#8]).now.rst = true := by decide
theorem witness_ResetForgetsTheEvent : let s := waiting .passthrough 0x41#8 0x41#8 [resetting 0x07#8]
    let u := demo .awaitingRed [resetting 0x07#8]
    u.inputs = s.inputs ∧ u.tick = s.tick ∧ u.sent = s.sent ∧ s.now.rst = true ∧ u.phase ≠ s.phase := by decide
theorem witness_ByteOfferedDuringReset :
    (demo .passthrough [resetting 0x07#8, offering 0x07#8]).inputs = resetting 0x07#8 :: offering 0x07#8 :: [] ∧
    (resetting 0x07#8).rst = true ∧ (resetting 0x07#8).rxValid = true ∧ (resetting 0x07#8).rxData = 0x07#8 ∧
    (offering 0x07#8).rst = false ∧ (offering 0x07#8).rxValid = true ∧ (offering 0x07#8).rxData = 0x07#8 := by decide

/-- A state that meets the invariant in TXWAIT steps to a next state. -/
theorem witness_StepKeepsInv : (waiting .passthrough 0x41#8 0x41#8 [sinkReady]).Inv ∧
    (answer (step (waiting .passthrough 0x41#8 0x41#8 [sinkReady]))).isSome = true :=
  ⟨⟨fun _ => ⟨rfl, .inr ⟨rfl, rfl⟩⟩, fun h => nomatch h⟩, by decide⟩

/-- A state just after reset, in an environment that offers `b` and then is ready. -/
def afterReset (ins : List Inputs) : State := { demo .awaitingLength ins with status := false }

theorem witness_StatusTellsFrameInProgress_waiting : let s := afterReset [offering 0x07#8]
    s.state = .awaitingLength ∧ s.status = false ∧ s.phase = .idle ∧
    (answer (run 1 s)).map (·.phase) = some .txWait := by decide
theorem witness_StatusTellsFrameInProgress_idle : let s := afterReset [offering 0x07#8, sinkReady]
    s.state = .awaitingLength ∧ s.status = false ∧ s.phase = .idle ∧
    (answer (run 2 s)).map (fun t => (t.phase, t.state)) = some (.idle, .awaitingRed) ∧
    history 2 s [] = [0x07#8] := by decide
theorem witness_StateCountsBytesOfFrame : let s := afterReset [offering 0x0D#8, sinkReady]
    s.state = .awaitingLength ∧ s.status = false ∧ s.phase = .idle ∧
    (answer (run 2 s)).map (·.phase) = some .idle ∧ sinceSentinel (history 2 s []) = 0 := by decide

theorem witness_ResetAbandonsWaitingEvent :
    (let s := waiting .passthrough 0x41#8 0x41#8 [resetting 0x55#8, sinkReady]
     s.phase = .txWait ∧ s.inputs = resetting 0x55#8 :: [sinkReady] ∧ (resetting 0x55#8).rst = true ∧
     1 ≤ [sinkReady].length ∧ ∀ j ∈ [sinkReady].take 1, j.rxValid = false) ∧
    ((demo .awaitingRed [offering 0x00#8]).rxTransfer = true ∧
     (demo .awaitingGreen [offering 0xFF#8]).rxTransfer = true ∧
     (demo .awaitingBlue [offering 0x0D#8]).rxTransfer = true) := by decide

/-- Each compare register changes in some step with no reset. -/
theorem witness_CompareRegistersWrittenOnlyByTheirEntries :
    (answer (step (demo .awaitingRed [offering 0x00#8]))).map (·.cmpR != 0x11#8) = some true ∧
    (answer (step (demo .awaitingGreen [offering 0x00#8]))).map (·.cmpG != 0x22#8) = some true ∧
    (answer (step (demo .awaitingBlue [offering 0x0D#8]))).map (·.cmpB != 0x33#8) = some true := by decide
theorem witness_OnlySentinelOrResetReturnsToStart :
    (demo .awaitingRed [offering 0x0D#8]).state ≠ .awaitingLength ∧
    (answer (step (demo .awaitingRed [offering 0x0D#8]))).map (·.state) = some .awaitingLength ∧
    (answer (step (waiting .passthrough 0x0D#8 0x0D#8 [sinkReady]))).map (·.state) = some .awaitingLength := by decide
theorem witness_StatusSetAndCleared :
    (answer (step (afterReset [offering 0x07#8]))).map (·.status) = some true ∧
    (answer (step (demo .awaitingRed [offering 0x0D#8]))).map (·.status) = some false := by decide
theorem witness_OneTransferAtATime : (waiting .passthrough 0x41#8 0x41#8 [sinkReady]).txTransfer = true ∧
    (answer (step (waiting .passthrough 0x41#8 0x41#8 [sinkReady]))).map (·.phase) = some .idle := by decide
theorem witness_RunIsAFoldOfEvents : let s := demo .awaitingRed [offering 0x00#8, offering 0xFF#8]
    2 ≤ s.inputs.length ∧ (∀ i ∈ s.inputs.take 2, i.rst = false) ∧ (answer (run 2 s)).isSome = true ∧
    accepted 2 s = [0x00#8, 0xFF#8] := by decide

/-- The frame `FRAME(0x04, 0x10, 0x20, 0x30)` of program L3-3, without payload. -/
def frameScript : List Inputs :=
  playScript .awaitingLength [(0x04#8, []), (0x10#8, []), (0x20#8, []), (0x30#8, []), (0x0D#8, [])]

theorem witness_WholeFrameOutcome : let s := afterReset frameScript
    s.phase = .idle ∧ s.state = .awaitingLength ∧ 7 ≤ s.inputs.length ∧ (∀ i ∈ s.inputs.take 7, i.rst = false) ∧
    (answer (run 7 s)).map (·.phase) = some .idle ∧
    accepted 7 s = frameBytes 0x04#8 0x10#8 0x20#8 0x30#8 [] := by decide
theorem witness_WholeFrameOutcome_frameWf : frameWf 0x04#8 0x10#8 0x20#8 0x30#8 [] := by
  unfold frameWf
  decide
theorem witness_EveryByteSequencePlays : let play := [(0x07#8, [0x55#8]), (0x00#8, [])]
    (demo .awaitingLength (playScript .awaitingLength play ++ [sinkReady])).phase = .idle ∧
    (demo .awaitingLength (playScript .awaitingLength play ++ [sinkReady])).inputs =
      playScript (demo .awaitingLength []).state play ++ [sinkReady] := by decide
theorem witness_HeldByteAcceptedAfterTransfer :
    let s := waiting .passthrough 0x41#8 0x41#8
      (List.replicate 1 (offering 0x55#8) ++ { offering 0x55#8 with txReady := true } :: offering 0x55#8 :: [])
    s.phase = .txWait ∧ accepted 2 s = [] ∧ accepted 3 s = [0x55#8] := by decide
theorem witness_SentinelResynchronises :
    let s := demo .passthrough (eventScript .passthrough 0x0D#8 [0x55#8] ++ offering 0x07#8 :: [])
    s.phase = .idle ∧ s.inputs = eventScript s.state 0x0D#8 [0x55#8] ++ offering 0x07#8 :: [] ∧
    (demo .awaitingLength []).state = .awaitingLength := by decide

end Sys2Proof.Tests
end

/-! # The state of the machine (family 10_state)

What an accept step writes field by field, the invariant, and an induction over runs that carries the bytes accepted
since the last reset beside the state. -/

namespace Sys2Proof

/-! ## Codes and positions -/

theorem FrameState.code_le_four (st : FrameState) : st.code.toNat ≤ 4 := by
  cases st <;> decide

/-- The reserved codes 101, 110 and 111 read as no state (30_encoding R52). -/
theorem FrameState.ofCode_reserved {c : BitVec 3} (h : 4 < c.toNat) : FrameState.ofCode c = none := by
  have hne (d : BitVec 3) (hd : d.toNat ≤ 4) : c ≠ d := by
    rintro rfl
    omega
  simp [FrameState.ofCode, hne]

/-- The position after an event, on the numbers of 10_state R18. -/
theorem FrameState.after_code (c : Byte) (st : FrameState) :
    (st.after c).code.toNat = if c = 0x0D#8 then 0 else min (st.code.toNat + 1) 4 := by
  by_cases hc : c = 0x0D#8
  · subst hc
    simp [FrameState.code]
  · rw [FrameState.after_data st hc, FrameState.next_code, if_neg hc]

namespace Machine

/-! ## What an accept step writes -/

/-- An accept step either loads the transmit latch and waits (positions 0 and 4), or completes the event at once on
a state `u` that differs from the accepted one in a compare register only (40_event_cycle R62 to R64). -/
theorem acceptStep_cases (b : Byte) (s : State) :
    (s.state = .awaitingLength ∧ acceptStep b s = (s.accept b).loadTransmit (lenEcho b)) ∨
    (s.state = .passthrough ∧ acceptStep b s = (s.accept b).loadTransmit (relayValue b)) ∨
    (∃ u : State, u.state = s.state ∧ u.status = true ∧ u.phase = s.phase ∧ u.curByte = b ∧
      acceptStep b s = u.complete b) := by
  cases h : s.state with
  | awaitingLength => exact .inl ⟨rfl, by simp [acceptStep, h]⟩
  | awaitingRed => exact .inr (.inr ⟨(s.accept b).setRed (compareValue b), by simp [acceptStep, h]⟩)
  | awaitingGreen => exact .inr (.inr ⟨(s.accept b).setGreen (compareValue b), by simp [acceptStep, h]⟩)
  | awaitingBlue => exact .inr (.inr ⟨(s.accept b).setBlue (compareValue b), by simp [acceptStep, h]⟩)
  | passthrough => exact .inr (.inl ⟨rfl, by simp [acceptStep, h]⟩)

@[simp] theorem acceptStep_curByte (b : Byte) (s : State) : (acceptStep b s).curByte = b := by
  unfold acceptStep
  split <;> simp

theorem acceptStep_cmpR (b : Byte) (s : State) :
    (acceptStep b s).cmpR = if s.state = .awaitingRed then compareValue b else s.cmpR := by
  cases h : s.state <;> simp [acceptStep, h]

theorem acceptStep_cmpG (b : Byte) (s : State) :
    (acceptStep b s).cmpG = if s.state = .awaitingGreen then compareValue b else s.cmpG := by
  cases h : s.state <;> simp [acceptStep, h]

theorem acceptStep_cmpB (b : Byte) (s : State) :
    (acceptStep b s).cmpB = if s.state = .awaitingBlue then compareValue b else s.cmpB := by
  cases h : s.state <;> simp [acceptStep, h]

/-- A register that is `v` where `p` holds and keeps its value `x` elsewhere changes only where `p` holds. -/
theorem written_of_ne {p : Prop} [Decidable p] {v x y : Byte} (h : y = if p then v else x) (hne : y ≠ x) :
    p ∧ y = v := by
  by_cases hp : p
  · exact ⟨hp, h.trans (if_pos hp)⟩
  · exact absurd (h.trans (if_neg hp)) hne

/-- Completion clears `status` only on the sentinel (40_event_cycle R69). -/
theorem eq_sentinel_of_statusAtComplete {c : Byte} (h : statusAtComplete c true = false) : c = 0x0D#8 := by
  by_contra hc
  simp [statusAtComplete_data _ hc] at h

/-- Completion never sets `status`. -/
@[simp] theorem statusAtComplete_false (c : Byte) : statusAtComplete c false = false := by
  simp [statusAtComplete]

/-- An accept step leaves `status` 0 only where it completes an event on the sentinel, back in IDLE. -/
theorem acceptStep_of_status_false {b : Byte} {s : State} (hp : s.phase = .idle)
    (h : (acceptStep b s).status = false) : b = 0x0D#8 ∧ (acceptStep b s).phase = .idle := by
  obtain ⟨-, he⟩ | ⟨-, he⟩ | ⟨u, -, hst, hpu, -, he⟩ := acceptStep_cases b s
  · simp [he] at h
  · simp [he] at h
  · rw [he, State.complete_status, hst] at h
    exact ⟨eq_sentinel_of_statusAtComplete h, by rw [he, State.complete_phase, hpu, hp]⟩

/-! ## The invariant -/

/-- IDLE at the start of a frame, as a reset leaves the machine (70_reset R97). -/
theorem State.inv_of_start {s : State} (hst : s.state = .awaitingLength) (hp : s.phase = .idle) : s.Inv :=
  ⟨by simp [hp], fun _ hne => absurd hst hne⟩

/-- A completion in an event under way restores the invariant: the sentinel ends the frame, and any other byte
keeps `status` at 1. -/
theorem State.complete_inv {c : Byte} {s : State} (hp : s.phase = .idle) (hst : s.status = true) :
    (s.complete c).Inv := by
  by_cases hc : c = 0x0D#8
  · exact State.inv_of_start (by simp [hc]) hp
  · exact ⟨by simp [hp], fun _ _ => by simp [statusAtComplete_data _ hc, hst]⟩

theorem State.transmitStep_inv {s : State} (hst : s.status = true) : s.transmitStep.Inv :=
  State.complete_inv rfl hst

theorem acceptStep_inv (b : Byte) {s : State} (hp : s.phase = .idle) : (acceptStep b s).Inv := by
  obtain ⟨hs, he⟩ | ⟨hs, he⟩ | ⟨u, -, hst, hpu, -, he⟩ := acceptStep_cases b s
  · simp [he, State.Inv, hs]
  · simp [he, State.Inv, hs]
  · exact he ▸ State.complete_inv (hpu.trans hp) hst

theorem step_keeps_inv {s t : State} (hi : s.Inv) (h : step s = .next t) : t.Inv := by
  obtain ⟨-, rfl⟩ | ⟨hx, rfl⟩ | ⟨ht, rfl⟩ | ⟨-, -, -, rfl⟩ := step_cases h
  · exact State.inv_of_start rfl rfl
  · obtain ⟨-, hp, -⟩ := s.rxTransfer_iff.1 hx
    exact acceptStep_inv _ hp
  · obtain ⟨hp, -, -⟩ := s.txTransfer_iff.1 ht
    obtain ⟨hst, -⟩ := hi.1 hp
    exact State.transmitStep_inv hst
  · exact hi

/-! ## Runs and their history -/

/-- The bytes accepted since the last reset, after the step from `s`, where `h` are those before it. -/
def State.recorded (h : List Byte) (s : State) : List Byte := if s.now.rst then [] else h ++ s.acceptedNow

theorem State.recorded_of_reset {s : State} (h : List Byte) (hr : s.now.rst = true) : s.recorded h = [] :=
  if_pos hr

theorem State.recorded_of_rxTransfer {s : State} (h : List Byte) (hx : s.rxTransfer = true) :
    s.recorded h = h ++ [s.now.rxData] := by
  obtain ⟨-, -, hr⟩ := s.rxTransfer_iff.1 hx
  simp [State.recorded, State.acceptedNow, hr, hx]

theorem State.recorded_of_not_rxTransfer {s : State} (h : List Byte) (hr : s.now.rst = false)
    (hx : s.rxTransfer = false) : s.recorded h = h := by
  simp [State.recorded, State.acceptedNow, hr, hx]

theorem history_succ {n : Nat} {s t : State} (h : List Byte) (hs : step s = .next t) :
    history (n + 1) s h = history n t (s.recorded h) := by
  simp [history, hs, State.recorded]

theorem step_of_run_succ {n : Nat} {s t : State} (h : run (n + 1) s = .next t) :
    ∃ u, step s = .next u ∧ run n u = .next t := by
  cases hs : step s with
  | next u => exact ⟨u, rfl, by rwa [run_succ hs] at h⟩
  | fault r => simp [run, hs] at h
  | refused r => simp [run, hs] at h

/-- What holds of a state and the bytes accepted before it, and what every step keeps, holds at the end of every
run. -/
theorem run_induction {P : List Byte → State → Prop}
    (hstep : ∀ h s t, P h s → step s = .next t → P (s.recorded h) t)
    {n : Nat} {s t : State} {h : List Byte} (hP : P h s) (hrun : run n s = .next t) : P (history n s h) t := by
  induction n generalizing s h with
  | zero =>
    cases hrun
    exact hP
  | succ n ih =>
    obtain ⟨u, hs, hu⟩ := step_of_run_succ hrun
    rw [history_succ h hs]
    exact ih (hstep h s u hP hs) hu

theorem run_keeps_inv {n : Nat} {s t : State} (hi : s.Inv) (hrun : run n s = .next t) : t.Inv :=
  run_induction (P := fun _ => State.Inv) (h := []) (fun _ _ _ => step_keeps_inv) hi hrun

/-! ## What the history says of `state` and `status` -/

@[simp] theorem sinceSentinel_nil : sinceSentinel [] = 0 := rfl

/-- A sentinel starts the count again; any other byte adds one. -/
theorem sinceSentinel_append (h : List Byte) (b : Byte) :
    sinceSentinel (h ++ [b]) = if b = 0x0D#8 then 0 else sinceSentinel h + 1 := by
  by_cases hb : b = 0x0D#8 <;> simp [sinceSentinel, hb]

/-- The last byte of `h` is there and is no sentinel: a frame is under way (10_state R30). -/
def EndsInData (h : List Byte) : Prop := ∃ b, h.getLast? = some b ∧ b ≠ 0x0D#8

@[simp] theorem not_endsInData_nil : ¬ EndsInData [] := by
  simp [EndsInData]

@[simp] theorem endsInData_append (h : List Byte) (b : Byte) : EndsInData (h ++ [b]) ↔ b ≠ 0x0D#8 := by
  simp [EndsInData]

/-- `state` and `status` as the bytes `h` accepted since the last reset fix them. In TXWAIT the last of them is the
event in progress, which has raised `status` and has not yet moved `state`. -/
structure State.Tracks (h : List Byte) (s : State) : Prop where
  idle : s.phase = .idle → s.state.code.toNat = min (sinceSentinel h) 4 ∧ (s.status = true ↔ EndsInData h)
  waiting : s.phase = .txWait →
    ∃ h', h = h' ++ [s.curByte] ∧ s.state.code.toNat = min (sinceSentinel h') 4 ∧ s.status = true

theorem State.tracks_nil {s : State} (hst : s.state = .awaitingLength) (hs : s.status = false)
    (hp : s.phase = .idle) : s.Tracks [] :=
  ⟨fun _ => by simp [hst, hs, FrameState.code], by simp [hp]⟩

/-- The completion of the event of `c` brings `state` and `status` up to date with `c`. -/
theorem State.complete_tracks {c : Byte} {h : List Byte} {s : State} (hp : s.phase = .idle)
    (hk : s.state.code.toNat = min (sinceSentinel h) 4) (hst : s.status = true) :
    (s.complete c).Tracks (h ++ [c]) := by
  refine ⟨fun _ => ?_, by simp [hp]⟩
  rw [State.complete_state, State.complete_status, FrameState.after_code, sinceSentinel_append,
    endsInData_append, hst]
  by_cases hc : c = 0x0D#8
  · simp [hc]
  · simp only [hc, if_false, statusAtComplete_data _ hc, not_false_iff, ne_eq]
    exact ⟨by omega, trivial⟩

theorem State.transmitStep_tracks {h : List Byte} {s : State} (hk : s.state.code.toNat = min (sinceSentinel h) 4)
    (hst : s.status = true) : s.transmitStep.Tracks (h ++ [s.curByte]) :=
  State.complete_tracks rfl hk hst

theorem acceptStep_tracks (b : Byte) {h : List Byte} {s : State} (hp : s.phase = .idle)
    (hk : s.state.code.toNat = min (sinceSentinel h) 4) : (acceptStep b s).Tracks (h ++ [b]) := by
  have wait (v : Byte) : ((s.accept b).loadTransmit v).Tracks (h ++ [b]) :=
    ⟨by simp, fun _ => ⟨h, rfl, hk, rfl⟩⟩
  obtain ⟨-, he⟩ | ⟨-, he⟩ | ⟨u, hsu, hst, hpu, -, he⟩ := acceptStep_cases b s
  · exact he ▸ wait _
  · exact he ▸ wait _
  · exact he ▸ State.complete_tracks (hpu.trans hp) (hsu ▸ hk) hst

theorem step_keeps_tracks {h : List Byte} {s t : State} (hk : s.Tracks h) (hs : step s = .next t) :
    t.Tracks (s.recorded h) := by
  obtain ⟨hr, rfl⟩ | ⟨hx, rfl⟩ | ⟨ht, rfl⟩ | ⟨hr, hx, -, rfl⟩ := step_cases hs
  · rw [State.recorded_of_reset h hr]
    exact State.tracks_nil rfl rfl rfl
  · obtain ⟨-, hp, -⟩ := s.rxTransfer_iff.1 hx
    obtain ⟨hcount, -⟩ := hk.idle hp
    rw [State.recorded_of_rxTransfer h hx]
    exact acceptStep_tracks _ hp hcount
  · obtain ⟨hp, hr, -⟩ := s.txTransfer_iff.1 ht
    obtain ⟨h', rfl, hcount, hst⟩ := hk.waiting hp
    rw [State.recorded_of_not_rxTransfer _ hr (by simp [State.rxTransfer, State.rxReady, hp])]
    exact State.transmitStep_tracks (s := s.consume) hcount hst
  · rw [State.recorded_of_not_rxTransfer h hr hx]
    exact ⟨hk.idle, hk.waiting⟩

/-- From a state with the reset values, the history of a run fixes `state` and `status`. -/
theorem run_tracks {n : Nat} {s t : State} (hst : s.state = .awaitingLength) (hs : s.status = false)
    (hp : s.phase = .idle) (hrun : run n s = .next t) : t.Tracks (history n s []) :=
  run_induction (P := State.Tracks) (fun _ _ _ => step_keeps_tracks) (State.tracks_nil hst hs hp) hrun

/-! ## The obligations of the family -/

/-- Settles O43, by the four kinds of step. -/
theorem stepKeepsInv : Obligations.StepKeepsInv :=
  fun _ _ => step_keeps_inv

/-- Settles O44: the history of the run fixes `status`, and the invariant holds all along it. -/
theorem statusTellsFrameInProgress : Obligations.StatusTellsFrameInProgress := by
  intro n s t hst hs hp hrun
  obtain ⟨hwait, hidle⟩ := run_keeps_inv (State.inv_of_start hst hp) hrun
  have hk := run_tracks hst hs hp hrun
  exact ⟨fun h => (hwait h).1, fun h => (hk.idle h).2, hidle⟩

/-- Settles O45: the history of the run fixes `state`. -/
theorem stateCountsBytesOfFrame : Obligations.StateCountsBytesOfFrame := by
  intro n s t hst hs hp hrun hidle
  exact ((run_tracks hst hs hp hrun).idle hidle).1

/-- Settles O46: of the steps without reset, only an accept step writes a compare register. -/
theorem compareRegistersWrittenOnlyByTheirEntries : Obligations.CompareRegistersWrittenOnlyByTheirEntries := by
  intro s t h hr
  obtain ⟨hr', -⟩ | ⟨hx, rfl⟩ | ⟨-, rfl⟩ | ⟨-, -, -, rfl⟩ := step_cases h
  · simp [hr] at hr'
  · obtain ⟨-, hp, -⟩ := s.rxTransfer_iff.1 hx
    exact ⟨fun hne => ⟨hx, hp, written_of_ne (acceptStep_cmpR _ s.consume) hne⟩,
      fun hne => ⟨hx, hp, written_of_ne (acceptStep_cmpG _ s.consume) hne⟩,
      fun hne => ⟨hx, hp, written_of_ne (acceptStep_cmpB _ s.consume) hne⟩⟩
  · simp
  · simp

/-- Settles O48, by the four kinds of step. -/
theorem statusSetAndCleared : Obligations.StatusSetAndCleared := by
  intro s t h
  obtain ⟨hr, rfl⟩ | ⟨hx, rfl⟩ | ⟨-, rfl⟩ | ⟨-, -, -, rfl⟩ := step_cases h
  · simp [hr]
  · obtain ⟨-, hp, -⟩ := s.rxTransfer_iff.1 hx
    refine ⟨fun _ _ => hx, fun _ hf => .inr ?_⟩
    rw [acceptStep_curByte]
    exact acceptStep_of_status_false hp hf
  · refine ⟨fun hs ht => by simp [hs] at ht, fun hs ht => .inr ⟨?_, rfl⟩⟩
    rw [State.transmitStep_status, State.consume_status, hs] at ht
    exact eq_sentinel_of_statusAtComplete ht
  · simp +contextual

/-- Settles O1, from the laws of the codes. -/
theorem stateCodesAreZeroToFour : Obligations.StateCodesAreZeroToFour :=
  ⟨⟨rfl, rfl, rfl, rfl, rfl⟩, FrameState.ofCode_code, fun _ => FrameState.ofCode_reserved,
    fun s => s.state.code_le_four⟩

/-- Settles O33, port by port. -/
theorem outputPorts : Obligations.OutputPorts := by
  intro s
  refine ⟨?_, ?_, fun hv => if_pos hv, rfl, rfl, rfl, rfl, ?_, ?_⟩
  · simp [State.rxReady]
  · simp [State.txValid]
  · simp [State.rxTransfer]
  · simp [State.txTransfer]

/-- Settles O42: the machine right after reset is in IDLE at the start of a frame. -/
theorem invAtReset : Obligations.InvAtReset := State.inv_of_start rfl rfl

end Machine

end Sys2Proof

/-! # Runs as sequences of whole events (family 20_memory)

A step without reset moves the settled observation by the event of the byte it accepts, or not at all; a run folds
these events. -/

namespace Sys2Proof.Machine

/-! ## Runs without reset -/

/-- A step uses up one record of inputs, whatever else it does. -/
theorem step_inputs {s t : State} (h : step s = .next t) : t.inputs = s.inputs.tail := by
  obtain ⟨-, rfl⟩ | ⟨-, rfl⟩ | ⟨-, rfl⟩ | ⟨-, -, -, rfl⟩ := step_cases h <;> simp

/-- The environment lists its inputs for `n` steps and asks for no reset in them. -/
def State.ResetFree (n : Nat) (s : State) : Prop := n ≤ s.inputs.length ∧ ∀ i ∈ s.inputs.take n, i.rst = false

theorem State.ResetFree.now_rst {n : Nat} {s : State} (h : s.ResetFree (n + 1)) : s.now.rst = false := by
  obtain ⟨hlen, hrst⟩ := h
  cases hin : s.inputs with
  | nil => simp [hin] at hlen
  | cons i rest =>
    rw [State.now_of_cons hin]
    exact hrst i (by simp [hin])

theorem State.ResetFree.of_step {n : Nat} {s t : State} (h : s.ResetFree (n + 1)) (hs : step s = .next t) :
    t.ResetFree n := by
  obtain ⟨hlen, hrst⟩ := h
  have ht := step_inputs hs
  cases hin : s.inputs with
  | nil => simp [hin] at hlen
  | cons i rest =>
    simp only [hin, List.tail_cons, List.length_cons, List.take_succ_cons, List.mem_cons] at ht hlen hrst
    rw [State.ResetFree, ht]
    exact ⟨Nat.le_of_succ_le_succ hlen, fun j hj => hrst j (.inr hj)⟩

/-! ## What a step accepts -/

theorem State.acceptedNow_of_rxTransfer {s : State} (hx : s.rxTransfer = true) : s.acceptedNow = [s.now.rxData] :=
  if_pos hx

theorem State.acceptedNow_of_not_rxTransfer {s : State} (hx : s.rxTransfer = false) : s.acceptedNow = [] := by
  simp [State.acceptedNow, hx]

theorem State.acceptedNow_of_txWait {s : State} (hp : s.phase = .txWait) : s.acceptedNow = [] :=
  State.acceptedNow_of_not_rxTransfer (by simp [State.rxTransfer, State.rxReady, hp])

theorem accepted_succ {n : Nat} {s t : State} (hs : step s = .next t) :
    accepted (n + 1) s = s.acceptedNow ++ accepted n t := by
  simp [accepted, hs]

/-! ## The settled observation -/

/-- Using up a record of inputs is not observed, with an event waiting or not. -/
theorem State.consume_settled_observe (s : State) : s.consume.settled.observe = s.settled.observe := by
  cases hp : s.phase with
  | idle =>
    rw [State.settled_idle hp, State.settled_idle (by rw [State.consume_phase, hp])]
    rfl
  | txWait =>
    rw [State.settled_txWait hp, State.settled_txWait (by rw [State.consume_phase, hp])]
    rfl

/-- Where the branch effect of the event of `b` has led to `u`, `Complete(b)` ends that event
(40_event_cycle R59, R69). -/
theorem State.complete_observe_of_branch {b : Byte} {o : Observation} {u : State}
    (h : u.observe = Observation.branch b { o with status := true }) : (u.complete b).observe = o.event b := by
  by_cases hb : b = 0x0D#8
  · subst hb
    simp only [Observation.event, ← h, if_true, State.complete_sentinel]
    rfl
  · simp only [Observation.event, ← h, hb, if_false, State.complete_data u hb]
    rfl

/-- A branch effect that completes at once settles as the whole event (40_event_cycle R63). -/
theorem State.complete_settled_observe {b : Byte} {o : Observation} {u : State} (hp : u.phase = .idle)
    (h : u.observe = Observation.branch b { o with status := true }) :
    (u.complete b).settled.observe = o.event b := by
  rw [State.settled_idle (by simp [hp])]
  exact State.complete_observe_of_branch h

/-- A branch effect that waits to transmit `v` settles as the whole event, which sends `v` at once
(40_event_cycle R64, R66). -/
theorem State.loadTransmit_settled_observe {b v : Byte} {o : Observation} {u : State} (hc : u.curByte = b)
    (h : { u.observe with sent := u.sent ++ [v] } = Observation.branch b { o with status := true }) :
    (u.loadTransmit v).settled.observe = o.event b := by
  rw [State.settled_txWait rfl, ← hc]
  exact State.complete_observe_of_branch (hc ▸ h)

/-- An accept step, its event carried to its end, is the whole event (40_event_cycle R59, R62). -/
theorem acceptStep_settled_observe (b : Byte) {s : State} (hp : s.phase = .idle) :
    (acceptStep b s).settled.observe = s.observe.event b := by
  cases h : s.state <;> simp only [acceptStep, h]
  case awaitingLength =>
    exact State.loadTransmit_settled_observe rfl (by simp [Observation.branch, State.observe, h, lenEcho])
  case awaitingRed =>
    exact State.complete_settled_observe hp (by simp [Observation.branch, State.observe, h, compareValue])
  case awaitingGreen =>
    exact State.complete_settled_observe hp (by simp [Observation.branch, State.observe, h, compareValue])
  case awaitingBlue =>
    exact State.complete_settled_observe hp (by simp [Observation.branch, State.observe, h, compareValue])
  case passthrough =>
    exact State.loadTransmit_settled_observe rfl (by simp [Observation.branch, State.observe, h])

/-- A step without reset moves the settled observation by the event of the byte it accepts, if it accepts one: a
transmit step and a hold are already counted in it (40_event_cycle R60, R66, R67). -/
theorem step_settled_observe {s t : State} (hr : s.now.rst = false) (h : step s = .next t) :
    t.settled.observe = s.acceptedNow.foldl Observation.event s.settled.observe := by
  obtain ⟨hr', -⟩ | ⟨hx, rfl⟩ | ⟨ht, rfl⟩ | ⟨-, hx, -, rfl⟩ := step_cases h
  · simp [hr] at hr'
  · obtain ⟨-, hp, -⟩ := s.rxTransfer_iff.1 hx
    rw [State.acceptedNow_of_rxTransfer hx, State.settled_idle hp]
    exact acceptStep_settled_observe _ hp
  · obtain ⟨hp, -, -⟩ := s.txTransfer_iff.1 ht
    rw [State.acceptedNow_of_txWait hp, State.settled_txWait hp]
    rfl
  · rw [State.acceptedNow_of_not_rxTransfer hx]
    exact s.consume_settled_observe

/-- A run without reset folds the events of the bytes it accepts over the settled observation. -/
theorem run_settled_observe {n : Nat} {s t : State} (hfree : s.ResetFree n) (hrun : run n s = .next t) :
    t.settled.observe = (accepted n s).foldl Observation.event s.settled.observe := by
  induction n generalizing s with
  | zero =>
    cases hrun
    rfl
  | succ n ih =>
    obtain ⟨u, hs, hu⟩ := step_of_run_succ hrun
    rw [accepted_succ hs, List.foldl_append, ← step_settled_observe hfree.now_rst hs]
    exact ih (hfree.of_step hs) hu

/-! ## The obligation of the family -/

/-- Settles O50, by induction on the run: each step folds in the event of the byte it accepts. -/
theorem runIsAFoldOfEvents : Obligations.RunIsAFoldOfEvents :=
  fun _ _ _ hlen hrst => run_settled_observe ⟨hlen, hrst⟩

end Sys2Proof.Machine

/-! # Event words and the dispatch table (family 30_encoding)

An event word is either `{state, b}` of a position and a byte or reserved, and the table is a pair of rows for each
position; decoder, encoder and first match then agree because each has one value at `{state, b}`. -/

namespace Sys2Proof

/-! ## Event words -/

/-- A word is its code and its byte put together (30_encoding R46). -/
theorem evState_append_evData (ev : EventWord) : (evState ev ++ evData ev : EventWord) = ev :=
  (BitVec.extractLsb'_append_extractLsb'_eq_extractLsb' (show 8 = 0 + 8 from rfl)).trans BitVec.extractLsb'_eq_self

/-- Every code but the reserved ones is a position's (10_state R19). -/
theorem FrameState.exists_code_eq {c : BitVec 3} (h : c.toNat ≤ 4) : ∃ st : FrameState, st.code = c := by
  have hc : c = 0#3 ∨ c = 1#3 ∨ c = 2#3 ∨ c = 3#3 ∨ c = 4#3 := by bv_omega
  obtain rfl | rfl | rfl | rfl | rfl := hc
  exacts [⟨.awaitingLength, rfl⟩, ⟨.awaitingRed, rfl⟩, ⟨.awaitingGreen, rfl⟩, ⟨.awaitingBlue, rfl⟩, ⟨.passthrough, rfl⟩]

theorem FrameState.code_inj {st st' : FrameState} : st.code = st'.code ↔ st = st' :=
  ⟨fun h => Option.some.inj (by rw [← FrameState.ofCode_code st, h, FrameState.ofCode_code]), congrArg _⟩

/-- A word is formed by a position and a byte, or it is reserved (30_encoding R52). -/
theorem eventWord_or_reserved (ev : EventWord) :
    (∃ st b, ev = eventWord st b) ∨ 4 < (evState ev).toNat := by
  refine (Nat.lt_or_ge 4 (evState ev).toNat).symm.imp_left fun hle => ?_
  obtain ⟨st, hst⟩ := FrameState.exists_code_eq hle
  exact ⟨st, evData ev, by rw [eventWord, hst, evState_append_evData]⟩

theorem eventWord_inj {st st' : FrameState} {b b' : Byte} :
    eventWord st b = eventWord st' b' ↔ st = st' ∧ b = b' := by
  refine ⟨fun h => ⟨?_, by simpa using congrArg evData h⟩, fun ⟨hst, hb⟩ => by rw [hst, hb]⟩
  exact FrameState.code_inj.1 (by simpa using congrArg evState h)

theorem eventWord_toNat (st : FrameState) (b : Byte) : (eventWord st b).toNat = 256 * st.code.toNat + b.toNat := by
  rw [eventWord, BitVec.toNat_append, ← Nat.shiftLeft_add_eq_or_of_lt b.isLt, Nat.shiftLeft_eq, Nat.mul_comm]

/-! ## Decoder and encoder -/

theorem decode_reserved {ev : EventWord} (h : 4 < (evState ev).toNat) :
    decode ev = .error (.reservedState (evState ev)) := by
  simp [decode, FrameState.ofCode_reserved h]

theorem isData_iff {b : Byte} : isData b = true ↔ b ≠ 0x0D#8 := bne_iff_ne

theorem termEntry_wf (st : FrameState) : (termEntry st).wf = true := by
  cases st <;> rfl

theorem dataEntry_wf (st : FrameState) {b : Byte} (hb : b ≠ 0x0D#8) : (dataEntry st b).wf = true := by
  cases st <;> exact isData_iff.2 hb

theorem encode_termEntry (st : FrameState) : encode (termEntry st) = eventWord st 0x0D#8 := by
  cases st <;> rfl

theorem encode_dataEntry (st : FrameState) (b : Byte) : encode (dataEntry st b) = eventWord st b := by
  cases st <;> rfl

/-- The well-formed entries are the `_T` entries and the general entries of a byte other than the sentinel. -/
theorem wf_cases {i : Instr} (h : i.wf = true) :
    (∃ st, i = termEntry st) ∨ ∃ st b, b ≠ 0x0D#8 ∧ i = dataEntry st b := by
  cases i with
  | lenT => exact .inl ⟨.awaitingLength, rfl⟩
  | len b => exact .inr ⟨.awaitingLength, b, isData_iff.1 h, rfl⟩
  | redT => exact .inl ⟨.awaitingRed, rfl⟩
  | red b => exact .inr ⟨.awaitingRed, b, isData_iff.1 h, rfl⟩
  | grnT => exact .inl ⟨.awaitingGreen, rfl⟩
  | grn b => exact .inr ⟨.awaitingGreen, b, isData_iff.1 h, rfl⟩
  | bluT => exact .inl ⟨.awaitingBlue, rfl⟩
  | blu b => exact .inr ⟨.awaitingBlue, b, isData_iff.1 h, rfl⟩
  | passT => exact .inl ⟨.passthrough, rfl⟩
  | pass b => exact .inr ⟨.passthrough, b, isData_iff.1 h, rfl⟩

/-- A word that decodes is formed by a position and a byte, and the byte test chooses its entry (30_encoding R50). -/
theorem decode_ok_cases {ev : EventWord} {i : Instr} (h : decode ev = .ok i) :
    ∃ st, (ev = eventWord st 0x0D#8 ∧ i = termEntry st) ∨
      ∃ b, b ≠ 0x0D#8 ∧ ev = eventWord st b ∧ i = dataEntry st b := by
  obtain ⟨st, b, rfl⟩ | hres := eventWord_or_reserved ev
  · by_cases hb : b = 0x0D#8
    · subst hb
      exact ⟨st, .inl ⟨rfl, Except.ok.inj (h.symm.trans (decode_term st))⟩⟩
    · exact ⟨st, .inr ⟨b, hb, rfl, Except.ok.inj (h.symm.trans (decode_data st hb))⟩⟩
  · rw [decode_reserved hres] at h
    cases h

/-! ## The dispatch table -/

/-- The five positions, in the table's order. -/
def FrameState.all : List FrameState :=
  [.awaitingLength, .awaitingRed, .awaitingGreen, .awaitingBlue, .passthrough]

/-- The mnemonic of the general row of a position. -/
def FrameState.mnemonic : FrameState → String
  | .awaitingLength => "LEN"
  | .awaitingRed => "RED"
  | .awaitingGreen => "GRN"
  | .awaitingBlue => "BLU"
  | .passthrough => "PASS"

/-- The `_T` row of a position. -/
def FrameState.termRow (st : FrameState) : Row :=
  ⟨st.mnemonic ++ "_T", eventWord st Config.sentinel, 0x7FF#11, fun _ => termEntry st⟩

/-- The general row of a position. -/
def FrameState.dataRow (st : FrameState) : Row := ⟨st.mnemonic, eventWord st 0#8, 0x700#11, dataEntry st⟩

/-- The `_T` row of each position stands right before its general row (30_encoding R49). -/
theorem dispatchTable_eq_rows : dispatchTable = FrameState.all.flatMap fun st => [st.termRow, st.dataRow] := rfl

/-- A `_T` row admits one word: its mask keeps all bits. -/
theorem termRow_admits (st : FrameState) (ev : EventWord) :
    st.termRow.admits ev = decide (ev = eventWord st Config.sentinel) := by
  have hmask : ev &&& 0x7FF#11 = ev := BitVec.and_allOnes
  simp [Row.admits, FrameState.termRow, hmask, beq_eq_decide]

/-- A general row admits the words of its code: its mask clears the byte. -/
theorem dataRow_admits (st : FrameState) (ev : EventWord) :
    st.dataRow.admits ev = decide (evState ev = st.code) := by
  have hmask : ev &&& 0x700#11 = evState ev ++ 0#8 := by
    rw [← mask_append (evState ev) (evData ev), evState_append_evData]
  have hcode : (evState ev ++ 0#8 : EventWord) = st.code ++ 0#8 ↔ evState ev = st.code :=
    ⟨fun h => by simpa only [evState_append] using congrArg evState h, fun h => by rw [h]⟩
  simp only [Row.admits, FrameState.dataRow, hmask, eventWord, beq_eq_decide, hcode]

/-- The rows that `{st, b}` matches, in the table's order (30_encoding R51). -/
theorem matchingRows_eventWord (st : FrameState) (b : Byte) :
    (dispatchTable.filter fun r => r.admits (eventWord st b)) =
      if b = Config.sentinel then [st.termRow, st.dataRow] else [st.dataRow] := by
  have pair (st' : FrameState) : ([st'.termRow, st'.dataRow].filter fun r => r.admits (eventWord st b)) =
      if st = st' then (if b = Config.sentinel then [st.termRow, st.dataRow] else [st.dataRow]) else [] := by
    by_cases hst : st = st'
    · subst hst
      by_cases hb : b = Config.sentinel <;> simp [termRow_admits, dataRow_admits, eventWord_inj, hb]
    · simp [termRow_admits, dataRow_admits, eventWord_inj, FrameState.code_inj, hst]
  rw [dispatchTable_eq_rows, List.filter_flatMap]
  simp only [pair]
  cases st <;> simp [FrameState.all]

/-- First match takes the `_T` row where the byte is the sentinel (30_encoding R51). -/
theorem firstMatch_eventWord (st : FrameState) (b : Byte) :
    firstMatch (eventWord st b) = some (if b = Config.sentinel then termEntry st else dataEntry st b) := by
  rw [firstMatch, ← List.head?_filter, matchingRows_eventWord, evData_eventWord]
  split <;> rfl

/-- A first match is the entry of a row that the word matches. -/
theorem exists_row_of_firstMatch {ev : EventWord} {i : Instr} (h : firstMatch ev = some i) :
    ∃ r ∈ dispatchTable, r.admits ev = true ∧ r.entry (evData ev) = i := by
  obtain ⟨r, hfind, hentry⟩ := Option.map_eq_some_iff.1 h
  exact ⟨r, List.mem_of_find?_eq_some hfind, List.find?_some (p := fun r : Row => r.admits ev) hfind, hentry⟩

/-- No row of the table admits a reserved word (30_encoding R52). -/
theorem admits_reserved {ev : EventWord} (h : 4 < (evState ev).toNat) : ∀ r ∈ dispatchTable, r.admits ev = false := by
  have hcode (st : FrameState) : evState ev ≠ st.code := fun he => by
    have hle := st.code_le_four
    rw [← he] at hle
    omega
  intro r hr
  rw [dispatchTable_eq_rows, List.mem_flatMap] at hr
  obtain ⟨st, -, hr⟩ := hr
  obtain rfl | rfl : r = st.termRow ∨ r = st.dataRow := by simpa using hr
  · rw [termRow_admits, decide_eq_false_iff_not]
    rintro rfl
    exact hcode st (evState_eventWord ..)
  · rw [dataRow_admits, decide_eq_false_iff_not]
    exact hcode st

theorem firstMatch_reserved {ev : EventWord} (h : 4 < (evState ev).toNat) : firstMatch ev = none := by
  have hnone : dispatchTable.find? (fun r => r.admits ev) = none :=
    List.find?_eq_none.2 fun r hr => by simp [admits_reserved h r hr]
  rw [firstMatch, hnone, Option.map_none]

namespace Machine

/-! ## The entries of a frame -/

theorem entries_data {b : Byte} (st : FrameState) (bs : List Byte) (hb : b ≠ 0x0D#8) :
    entries st (b :: bs) = .ok (dataEntry st b) :: entries st.next bs := by
  rw [entries, decode_data st hb, FrameState.after_data st hb]

theorem entries_term (st : FrameState) : entries st [0x0D#8] = [.ok (termEntry st)] := by
  rw [entries, decode_term, entries]

/-- A payload selects one PASS for each byte, and the sentinel after it PASS_T. -/
theorem entries_payload {payload : List Byte} (hp : ∀ p ∈ payload, p ≠ 0x0D#8) :
    entries .passthrough (payload ++ [0x0D#8]) = payload.map (fun p => .ok (.pass p)) ++ [.ok .passT] := by
  induction payload with
  | nil => exact entries_term .passthrough
  | cons p ps ih =>
    obtain ⟨hp, hps⟩ := List.forall_mem_cons.1 hp
    rw [List.cons_append, entries_data _ _ hp, FrameState.next, ih hps]
    rfl

/-! ## The obligations of the family -/

/-- Settles O4: the word of a `_T` entry holds the sentinel, and the word of a general entry another byte. -/
theorem decodeOfEncode : Obligations.DecodeOfEncode := by
  intro i hi
  obtain ⟨st, rfl⟩ | ⟨st, b, hb, rfl⟩ := wf_cases hi
  · rw [encode_termEntry, decode_term]
  · rw [encode_dataEntry, decode_data st hb]

/-- Settles O5, by the byte test of the word that decodes. -/
theorem encodeOfDecode : Obligations.EncodeOfDecode := by
  intro ev i h
  obtain ⟨st, ⟨rfl, rfl⟩ | ⟨b, hb, rfl, rfl⟩⟩ := decode_ok_cases h
  · exact ⟨termEntry_wf st, encode_termEntry st⟩
  · exact ⟨dataEntry_wf st hb, encode_dataEntry st b⟩

/-- Settles O6: a formed word has the same entry on both sides, and a reserved word has none. -/
theorem decodeIsFirstMatch : Obligations.DecodeIsFirstMatch := by
  refine ⟨decode_eventWord, fun ev => ?_⟩
  obtain ⟨st, b, rfl⟩ | hres := eventWord_or_reserved ev
  · rw [decode_eventWord, firstMatch_eventWord]
    rfl
  · rw [decode_reserved hres, firstMatch_reserved hres]
    rfl

/-- Settles O7, from the list of matching rows. -/
theorem rowsMatchedByAnEventWord : Obligations.RowsMatchedByAnEventWord := by
  intro st b
  refine ⟨?_, _, decode_eventWord st b, firstMatch_eventWord st b, ?_⟩
  · rw [matchingRows_eventWord]
    split <;> rfl
  · simpa only [evData_eventWord] using exists_row_of_firstMatch (firstMatch_eventWord st b)

/-- Settles O8: a position's code is at most 4, so that the words formed are never reserved. -/
theorem reservedWordsHaveNoEntry : Obligations.ReservedWordsHaveNoEntry :=
  ⟨fun _ hres => ⟨decode_reserved hres, admits_reserved hres⟩, fun s => ⟨_, decode_eventWord s.state s.now.rxData⟩⟩

/-- Settles O9, byte by byte, with an induction over the payload. -/
theorem entriesOfAFrame : Obligations.EntriesOfAFrame := by
  intro n r g b payload hwf
  simp only [frameWf, List.forall_mem_append, List.forall_mem_cons] at hwf
  obtain ⟨⟨hn, hr, hg, hb, -⟩, hp⟩ := hwf
  have hred := fun bs => entries_data .awaitingLength bs hn
  have hgrn := fun bs => entries_data .awaitingRed bs hr
  have hblu := fun bs => entries_data .awaitingGreen bs hg
  have hpass := fun bs => entries_data .awaitingBlue bs hb
  simp only [FrameState.next, dataEntry] at hred hgrn hblu hpass
  refine ⟨entries_term .awaitingLength, ?_, ?_, ?_, ?_⟩
  · rw [hred, entries_term, termEntry]
  · rw [hred, hgrn, entries_term, termEntry]
  · rw [hred, hgrn, hblu, entries_term, termEntry]
  · simp only [frameBytes, List.cons_append, List.nil_append, hred, hgrn, hblu, hpass, entries_payload hp]

/-- Settles O2, from the laws of the layout. -/
theorem eventWordLayout : Obligations.EventWordLayout :=
  fun st b => ⟨evState_eventWord st b, evData_eventWord st b, eventWord_toNat st b⟩

/-- Settles O3: each word written out is `{state, b}` of its row. -/
theorem writtenWordsDecode : Obligations.WrittenWordsDecode :=
  ⟨decode_term .awaitingLength, decode_data (b := 0x07#8) .awaitingLength (by decide),
    decode_term .awaitingRed, decode_data (b := 0x80#8) .awaitingRed (by decide),
    decode_term .awaitingGreen, decode_data (b := 0xFF#8) .awaitingGreen (by decide),
    decode_term .awaitingBlue, decode_data (b := 0x7F#8) .awaitingBlue (by decide),
    decode_term .passthrough, decode_data (b := 0x41#8) .passthrough (by decide)⟩

/-- Settles O10, on the numbers of the bytes. -/
theorem operandValues : Obligations.OperandValues := by
  intro b
  refine ⟨?_, ?_, compareValue_eq_not b, relayValue_eq b⟩
  · rw [lenEcho, BitVec.toNat_sub]
    have hlt := b.isLt
    simp only [Config.lenBias, BitVec.toNat_ofNat]
    omega
  · rw [compareValue_eq_not, BitVec.toNat_not]

end Machine

end Sys2Proof

/-! # The event cycle (family 40_event_cycle)

The step against R71's text, the fields an accept step writes, holds as a part of a run, and one event played from
its offer to its end, which an induction over the bytes strings together. -/

namespace Sys2Proof.Machine

/-! ## The step function of R71 -/

theorem Reference.advance_eq (st : FrameState) : Reference.advance st = st.next := by
  cases st <;> rfl

theorem Reference.echo_wrap (b : Byte) : Reference.echo .wrap b = lenEcho b := by
  apply BitVec.eq_of_toInt_eq
  rw [Reference.echo, BitVec.toInt_ofInt, lenEcho, BitVec.toInt_sub, BitVec.toInt_eq_toNat_bmod]
  simpa [Config.lenBias] using Int.emod_bmod ((b.toNat : Int) - 3) 256

theorem Reference.inverted_eq (b : Byte) : Reference.inverted b = compareValue b := by
  rw [Reference.inverted, compareValue]
  bv_omega

theorem Reference.complete_eq (c : Byte) (s : State) : Reference.complete c s = s.complete c := by
  by_cases hc : c = 0x0D#8
  · rw [Reference.complete, if_pos hc, hc, State.complete_sentinel]
  · rw [Reference.complete, if_neg hc, Reference.advance_eq, State.complete_data s hc]

/-- After R61's writes, R71's branch on `state` is the accept step. -/
theorem Reference.branch_accept (b : Byte) (s : State) :
    Reference.branch Config.specPolicy b (s.accept b) = acceptStep b s := by
  cases h : s.state <;>
    simp [Reference.branch, acceptStep, h, Reference.complete_eq, Reference.inverted_eq, Reference.echo_wrap,
      Config.specPolicy, State.loadTransmit, State.setRed, State.setGreen, State.setBlue]

theorem Reference.step_reset {p : Config.Policy} {s : State} (hr : s.now.rst = true) :
    Reference.step p s = s.consume.resetStep :=
  if_pos hr

theorem Reference.step_accept {s : State} (hx : s.rxTransfer = true) :
    Reference.step Config.specPolicy s = acceptStep s.now.rxData s.consume := by
  obtain ⟨hv, hp, hr⟩ := s.rxTransfer_iff.1 hx
  rw [← Reference.branch_accept]
  simp [Reference.step, hr, hp, hv, Config.specPolicy, State.accept, State.consume, statusAtAccept]

theorem Reference.step_transmit {p : Config.Policy} {s : State} (ht : s.txTransfer = true) :
    Reference.step p s = s.consume.transmitStep := by
  obtain ⟨hp, hr, hready⟩ := s.txTransfer_iff.1 ht
  simp [Reference.step, hr, hp, hready, Reference.complete_eq, State.transmitStep]

theorem Reference.step_hold {p : Config.Policy} {s : State} (hr : s.now.rst = false) (hx : s.rxTransfer = false)
    (ht : s.txTransfer = false) : Reference.step p s = s.consume := by
  have hx' : ¬ (s.phase = .idle ∧ s.now.rxValid = true) := fun ⟨hp, hv⟩ => by
    simp [s.rxTransfer_iff.2 ⟨hv, hp, hr⟩] at hx
  have ht' : ¬ (s.phase = .txWait ∧ s.now.txReady = true) := fun ⟨hp, hready⟩ => by
    simp [s.txTransfer_iff.2 ⟨hp, hr, hready⟩] at ht
  simp only [Reference.step, hr, State.consume_phase, hx', ht', if_false, Bool.false_eq_true]

/-- A receive transfer makes the accept step of the byte offered. -/
theorem step_of_rxTransfer {s : State} (hx : s.rxTransfer = true) :
    step s = .next (acceptStep s.now.rxData s.consume) :=
  (step_accept hx rfl).trans (exec_selected s.now.rxData s.consume)

/-- No step stops (30_encoding R53, 60_exceptions R83). -/
theorem exists_step_eq_next (s : State) : ∃ t, step s = .next t := by
  by_cases hr : s.now.rst = true
  · exact ⟨_, step_reset hr⟩
  by_cases hx : s.rxTransfer = true
  · exact ⟨_, step_of_rxTransfer hx⟩
  by_cases ht : s.txTransfer = true
  · exact ⟨_, step_transmit ht⟩
  · simp only [Bool.not_eq_true] at hr hx ht
    exact ⟨_, step_hold hr hx ht⟩

/-- Settles O31, by the four kinds of step. -/
theorem stepIsTheSpecStep : Obligations.StepIsTheSpecStep := by
  intro s
  obtain ⟨t, h⟩ := exists_step_eq_next s
  rw [h]
  obtain ⟨hr, rfl⟩ | ⟨hx, rfl⟩ | ⟨ht, rfl⟩ | ⟨hr, hx, ht, rfl⟩ := step_cases h
  · rw [Reference.step_reset hr]
  · rw [Reference.step_accept hx]
  · rw [Reference.step_transmit ht]
  · rw [Reference.step_hold hr hx ht]

/-! ## What an accept step writes -/

theorem acceptStep_txHold (b : Byte) (s : State) :
    (acceptStep b s).txHold =
      if s.state = .awaitingLength then lenEcho b else if s.state = .passthrough then b else s.txHold := by
  cases h : s.state <;> simp [acceptStep, h]

theorem acceptStep_phase (b : Byte) (s : State) :
    (acceptStep b s).phase = if FrameState.transmits s.state then .txWait else s.phase := by
  cases h : s.state <;> simp [acceptStep, h, FrameState.transmits]

/-- `status` is 0 after an accept step exactly where the event of a sentinel has ended in it (40_event_cycle R69). -/
theorem acceptStep_status_false_iff {b : Byte} {s : State} (hp : s.phase = .idle) :
    (acceptStep b s).status = false ↔ b = 0x0D#8 ∧ (acceptStep b s).phase = .idle := by
  refine ⟨acceptStep_of_status_false hp, fun ⟨hb, hidle⟩ => ?_⟩
  obtain ⟨-, he⟩ | ⟨-, he⟩ | ⟨u, -, -, -, -, he⟩ := acceptStep_cases b s
  · simp [he] at hidle
  · simp [he] at hidle
  · rw [he, hb, State.complete_status, statusAtComplete_sentinel]

/-! ## Transmit steps and settled states -/

theorem State.transmitStep_of_sentinel {s : State} (hc : s.curByte = 0x0D#8) :
    s.transmitStep =
      { s with sent := s.sent ++ [s.txHold], phase := .idle, state := .awaitingLength, status := false } :=
  (congrArg (fun c => State.complete c _) hc).trans (State.complete_sentinel _)

theorem State.transmitStep_of_data {s : State} (hc : s.curByte ≠ 0x0D#8) :
    s.transmitStep = { s with sent := s.sent ++ [s.txHold], phase := .idle, state := s.state.next } :=
  State.complete_data _ hc

@[simp] theorem State.settled_phase (s : State) : s.settled.phase = .idle := by
  cases hp : s.phase with
  | idle => rw [State.settled_idle hp, hp]
  | txWait => rw [State.settled_txWait hp, State.transmitStep_phase]

/-- A sentinel's branch effect comes first, and then its frame ends (40_event_cycle R70). -/
theorem Observation.event_sentinel (o : Observation) :
    o.event 0x0D#8 =
      { Observation.branch 0x0D#8 { o with status := true } with state := .awaitingLength, status := false } :=
  rfl

theorem Observation.event_data {b : Byte} (o : Observation) (hb : b ≠ 0x0D#8) :
    o.event b =
      { Observation.branch b { o with status := true } with
        state := (Observation.branch b { o with status := true }).state.next } :=
  if_neg hb

/-- A branch effect leaves `state` to the termination check. -/
@[simp] theorem Observation.branch_state (b : Byte) (o : Observation) : (Observation.branch b o).state = o.state := by
  cases h : o.state <;> simp [Observation.branch, h]

@[simp] theorem Observation.event_state (o : Observation) (b : Byte) : (o.event b).state = o.state.after b := by
  by_cases hb : b = 0x0D#8
  · rw [hb, Observation.event_sentinel, FrameState.after_sentinel]
  · rw [Observation.event_data o hb, Observation.branch_state, FrameState.after_data _ hb]

/-! ## Holds -/

theorem accepted_add {m n : Nat} {s t : State} (h : run m s = .next t) :
    accepted (m + n) s = accepted m s ++ accepted n t := by
  induction m generalizing s with
  | zero =>
    cases h
    rw [Nat.zero_add]
    rfl
  | succ m ih =>
    obtain ⟨u, hs, hu⟩ := step_of_run_succ h
    rw [Nat.add_right_comm, accepted_succ hs, accepted_succ hs, ih hu, List.append_assoc]

theorem State.acceptedNow_of_txTransfer {s : State} (ht : s.txTransfer = true) : s.acceptedNow = [] :=
  State.acceptedNow_of_txWait (s.txTransfer_iff.1 ht).1

/-- The step from `s` only uses up a record of inputs, and accepts nothing. -/
def State.Holds (s : State) : Prop := step s = .next s.consume ∧ s.acceptedNow = []

theorem State.holds_txWait {s : State} (hp : s.phase = .txWait) (hq : s.now.rst = false ∧ s.now.txReady = false) :
    s.Holds :=
  ⟨step_waits hp hq.1 hq.2, State.acceptedNow_of_txWait hp⟩

theorem State.holds_idle {s : State} (hp : s.phase = .idle) (hq : s.now.rst = false ∧ s.now.rxValid = false) :
    s.Holds := by
  obtain ⟨hr, hv⟩ := hq
  have hx : s.rxTransfer = false := by simp [State.rxTransfer, hv]
  exact ⟨step_hold hr hx (by simp [State.txTransfer, State.txValid, hp]), State.acceptedNow_of_not_rxTransfer hx⟩

/-- While every record of inputs makes a block of this phase hold, a run changes nothing of the block. -/
theorem run_holds {p : Phase} {quiet : Inputs → Prop} (hold : ∀ s : State, s.phase = p → quiet s.now → s.Holds)
    {waits rest : List Inputs} {s : State} (hp : s.phase = p) (hin : s.inputs = waits ++ rest)
    (hq : ∀ w ∈ waits, quiet w) :
    run waits.length s = .next { s with inputs := rest, tick := s.tick + waits.length } ∧
      accepted waits.length s = [] := by
  induction waits generalizing s with
  | nil =>
    subst hin
    exact ⟨rfl, rfl⟩
  | cons w ws ih =>
    obtain ⟨hw, hws⟩ := List.forall_mem_cons.1 hq
    obtain ⟨hs, ha⟩ := hold s hp (by rwa [State.now_of_cons hin])
    obtain ⟨hrun, hacc⟩ := ih (s := s.consume) hp (by simp [hin]) hws
    rw [List.length_cons, run_succ hs, accepted_succ hs, ha, hrun, hacc]
    exact ⟨by simp [State.consume, Nat.add_right_comm, Nat.add_assoc], rfl⟩

/-- A run of `n` holds, in an environment that lists at least `n` records. -/
theorem run_holds_take {p : Phase} {quiet : Inputs → Prop}
    (hold : ∀ s : State, s.phase = p → quiet s.now → s.Holds) {n : Nat} {s : State} (hp : s.phase = p)
    (hn : n ≤ s.inputs.length) (hq : ∀ i ∈ s.inputs.take n, quiet i) :
    run n s = .next { s with inputs := s.inputs.drop n, tick := s.tick + n } ∧ accepted n s = [] := by
  have h := run_holds hold hp (List.take_append_drop n s.inputs).symm hq
  rwa [List.length_take_of_le hn] at h

/-- A waiting event ends at the first step at which the sink is ready, and accepts nothing till then
(40_event_cycle R66, R67). -/
theorem run_waiting_event {waits rest : List Inputs} {i : Inputs} {s : State} (hp : s.phase = .txWait)
    (hin : s.inputs = waits ++ i :: rest) (hw : ∀ w ∈ waits, w.rst = false ∧ w.txReady = false)
    (hr : i.rst = false) (ht : i.txReady = true) :
    run (waits.length + 1) s =
        .next (State.transmitStep { s with inputs := rest, tick := s.tick + waits.length + 1 }) ∧
      accepted (waits.length + 1) s = [] := by
  obtain ⟨hrun, hacc⟩ := run_holds (fun _ => State.holds_txWait) hp hin hw
  have hready : State.txTransfer { s with inputs := i :: rest, tick := s.tick + waits.length } = true :=
    (State.txTransfer_iff _).2 ⟨hp, hr, ht⟩
  have hs := step_transmit hready
  rw [run_add hrun, accepted_add hrun, hacc, run_succ hs, accepted_succ hs, State.acceptedNow_of_txTransfer hready]
  exact ⟨rfl, rfl⟩

/-! ## Whole events and their sequences -/

/-- One event played from IDLE: its byte alone is accepted, and the block is back in IDLE having done the whole
event (40_event_cycle R59). -/
theorem run_eventScript {b : Byte} {waits : List Byte} {rest : List Inputs} {s : State} (hp : s.phase = .idle)
    (hin : s.inputs = eventScript s.state b waits ++ rest) :
    accepted (eventScript s.state b waits).length s = [b] ∧
      ∃ t, run (eventScript s.state b waits).length s = .next t ∧ t.phase = .idle ∧ t.inputs = rest ∧
        t.observe = s.observe.event b := by
  have hnow : s.now = offering b := State.now_of_cons hin
  have hx : s.rxTransfer = true := s.rxTransfer_iff.2 (by simp [hnow, hp, offering])
  have hs : step s = .next (acceptStep b s.consume) := by rw [step_of_rxTransfer hx, hnow]; rfl
  have ha : s.acceptedNow = [b] := by rw [State.acceptedNow_of_rxTransfer hx, hnow]; rfl
  have hobs : (acceptStep b s.consume).settled.observe = s.observe.event b :=
    acceptStep_settled_observe b (s := s.consume) hp
  have hphase := acceptStep_phase b s.consume
  cases htr : FrameState.transmits s.state with
  | false =>
    simp only [eventScript, htr] at hin ⊢
    have hidle : (acceptStep b s.consume).phase = .idle := by simpa [htr, hp] using hphase
    rw [State.settled_idle hidle] at hobs
    exact ⟨by simp [accepted_succ hs, ha, accepted], _, run_succ hs, hidle, by simp [hin], hobs⟩
  | true =>
    simp only [eventScript, htr, if_true] at hin ⊢
    have hwait : (acceptStep b s.consume).phase = .txWait := by simpa [htr] using hphase
    obtain ⟨hrun, hacc⟩ := run_waiting_event (waits := waits.map offering) (i := sinkReady) (rest := rest) hwait
      (by simp [hin]) (by simp [offering]) rfl rfl
    rw [State.settled_txWait hwait] at hobs
    rw [List.length_cons, List.length_append, List.length_singleton, accepted_succ hs, ha, hacc, run_succ hs]
    exact ⟨rfl, _, hrun, rfl, rfl, hobs⟩

/-- A sequence of events played from IDLE. -/
theorem run_playScript {play : List (Byte × List Byte)} {rest : List Inputs} {s : State} (hp : s.phase = .idle)
    (hin : s.inputs = playScript s.state play ++ rest) :
    accepted (playScript s.state play).length s = play.map Prod.fst ∧
      ∃ t, run (playScript s.state play).length s = .next t ∧ t.phase = .idle ∧ t.inputs = rest ∧
        t.observe = (play.map Prod.fst).foldl Observation.event s.observe := by
  induction play generalizing s with
  | nil => exact ⟨rfl, s, rfl, hp, hin, rfl⟩
  | cons event play ih =>
    obtain ⟨b, waits⟩ := event
    rw [playScript, List.append_assoc] at hin
    obtain ⟨hacc, t, hrun, hpt, hint, hobs⟩ := run_eventScript hp hin
    have hst : t.state = s.state.after b := (congrArg Observation.state hobs).trans (s.observe.event_state b)
    obtain ⟨hacc', u, hrun', hpu, hinu, hobs'⟩ := ih hpt (by rw [hint, hst])
    rw [hst] at hacc' hrun'
    rw [playScript, List.length_append, accepted_add hrun, run_add hrun, hacc, hacc']
    exact ⟨rfl, u, hrun', hpu, hinu, by rw [hobs', hobs]; rfl⟩

/-- Settles O52, by induction on the sequence of bytes. -/
theorem everyByteSequencePlays : Obligations.EveryByteSequencePlays :=
  fun _ _ _ => run_playScript

/-! ## What a whole frame does -/

/-- A payload is relayed byte by byte (43_passthrough R81). -/
theorem foldl_event_payload {payload : List Byte} {o : Observation} (hwf : ∀ p ∈ payload, p ≠ 0x0D#8)
    (hst : o.state = .passthrough) (hs : o.status = true) :
    payload.foldl Observation.event o = { o with sent := o.sent ++ payload } := by
  induction payload generalizing o with
  | nil => simp
  | cons p ps ih =>
    obtain ⟨hp, hps⟩ := List.forall_mem_cons.1 hwf
    have he : o.event p = { o with sent := o.sent ++ [p] } := by
      simp [Observation.event_data o hp, Observation.branch, hst, ← hs, FrameState.next]
    rw [List.foldl_cons, he, ih (o := { o with sent := o.sent ++ [p] }) hps hst hs, List.append_assoc,
      List.singleton_append]

/-- A well-formed frame from its start (90_conflicts C1). -/
theorem foldl_event_frame {n r g b : Byte} {payload : List Byte} {o : Observation}
    (hwf : frameWf n r g b payload) (hst : o.state = .awaitingLength) :
    (frameBytes n r g b payload).foldl Observation.event o =
      { state := .awaitingLength, cmpR := 255#8 - r, cmpG := 255#8 - g, cmpB := 255#8 - b, status := false,
        sent := o.sent ++ [n - 3#8] ++ payload ++ [0x0D#8] } := by
  simp only [frameWf, List.forall_mem_append, List.forall_mem_cons] at hwf
  obtain ⟨⟨hn, hr, hg, hb, -⟩, hp⟩ := hwf
  have head : [n, r, g, b].foldl Observation.event o =
      { state := .passthrough, cmpR := 255#8 - r, cmpG := 255#8 - g, cmpB := 255#8 - b, status := true,
        sent := o.sent ++ [n - 3#8] } := by
    simp [Observation.event_data, hn, hr, hg, hb, Observation.branch, hst, FrameState.next]
  rw [frameBytes, List.foldl_append, List.foldl_append, head, foldl_event_payload hp rfl rfl, List.foldl_cons,
    Observation.event_sentinel]
  rfl

/-- Settles O51: the run folds the events of the frame it accepts. -/
theorem wholeFrameOutcome : Obligations.WholeFrameOutcome := by
  intro k s t n r g b payload hp hst hlen hrst hwf hrun hacc hpt
  have hobs := run_settled_observe ⟨hlen, hrst⟩ hrun
  rw [State.settled_idle hpt, State.settled_idle hp, hacc, foldl_event_frame hwf hst] at hobs
  obtain ⟨hstate, hR, hG, hB, hstatus, hsent⟩ := Observation.mk.inj hobs
  exact ⟨hsent, hR, hG, hB, hstate, hstatus⟩

/-! ## The other obligations of the family -/

/-- Settles O21: a transmitting entry writes the transmit latch and waits, a colour entry writes its own compare
register and completes. -/
theorem entryFrame : Obligations.EntryFrame := by
  intro i s
  cases i with
  | lenT | len | passT | pass => exact ⟨_, rfl, by simp⟩
  | redT | red | grnT | grn | bluT | blu => exact ⟨_, rfl, by simp⟩

/-- Settles O23, position by position. -/
theorem branchDependsOnStateOnly : Obligations.BranchDependsOnStateOnly := by
  rintro s b hp hr hv rfl
  refine ⟨_, step_offered hp hr hv, acceptStep_sent _ _, ?_⟩
  cases h : s.state <;>
    simp [acceptStep_txHold, acceptStep_phase, acceptStep_cmpR, acceptStep_cmpG, acceptStep_cmpB, h, hp,
      FrameState.transmits, lenEcho, compareValue]

/-- Settles O24, from what an accept step writes. -/
theorem acceptanceLatchesTheByte : Obligations.AcceptanceLatchesTheByte :=
  fun s hp hr hv =>
    ⟨_, step_offered hp hr hv, acceptStep_curByte _ _, acceptStep_status_false_iff (s := s.consume) hp⟩

/-- Settles O25, by the byte of the event. -/
theorem transmitStep : Obligations.TransmitStep := by
  intro s hr hp ht
  rw [step_transmit (s.txTransfer_iff.2 ⟨hp, hr, ht⟩)]
  by_cases hc : s.curByte = 0x0D#8
  · rw [if_pos hc, State.transmitStep_of_sentinel (s := s.consume) hc]
    rfl
  · rw [if_neg hc, State.transmitStep_of_data (s := s.consume) hc]
    rfl

/-- Settles O27: in TXWAIT every record with the sink not ready makes the block hold. -/
theorem holdWhileSinkNotReady : Obligations.HoldWhileSinkNotReady := by
  intro n s hp hn hq
  obtain ⟨hrun, hacc⟩ := run_holds_take (fun _ => State.holds_txWait) hp hn hq
  exact ⟨hrun, hacc, fun ⟨hwait, _⟩ => (hwait hp).1⟩

/-- Settles O28: in IDLE every record with nothing offered makes the block hold. -/
theorem holdWhileNothingOffered : Obligations.HoldWhileNothingOffered :=
  fun _ _ hp hn hq => (run_holds_take (fun _ => State.holds_idle) hp hn hq).1

/-- Settles O29, by the transmit step after the holds. -/
theorem waitingEventEndsWhenSinkReady : Obligations.WaitingEventEndsWhenSinkReady :=
  fun _ _ _ _ hp hin hw hr ht => ⟨_, (run_waiting_event hp hin hw hr ht).1, rfl, rfl, rfl, rfl⟩

/-- Settles O30: the settled accept step is the sentinel's whole event. -/
theorem sentinelBranchesThenTerminates : Obligations.SentinelBranchesThenTerminates := by
  intro s hp hr hv hb
  have hobs := acceptStep_settled_observe s.now.rxData (s := s.consume) hp
  rw [hb, Observation.event_sentinel] at hobs
  obtain ⟨hstate, -, -, -, hstatus, hsent⟩ := Observation.mk.inj hobs
  refine ⟨_, step_offered hp hr hv, ?_⟩
  rw [hb, hstate, hstatus, hsent]
  refine ⟨rfl, rfl, State.settled_phase _, ?_⟩
  cases h : s.state <;>
    simp [acceptStep_cmpR, acceptStep_cmpG, acceptStep_cmpB, Observation.branch, State.observe, h]

/-- Settles O49, by the four kinds of step. -/
theorem oneTransferAtATime : Obligations.OneTransferAtATime := by
  intro s t h
  obtain ⟨hr, rfl⟩ | ⟨hx, rfl⟩ | ⟨ht, rfl⟩ | ⟨hr, hx, ht, rfl⟩ := step_cases h
  · simp [State.txTransfer, State.txValid, hr]
  · obtain ⟨-, hp, -⟩ := s.rxTransfer_iff.1 hx
    simp [State.txTransfer, State.txValid, hp]
  · simp [ht]
  · simp +contextual [ht]

/-- Settles O53: the waiting event ends, and the next step accepts the held byte. -/
theorem heldByteAcceptedAfterTransfer : Obligations.HeldByteAcceptedAfterTransfer := by
  intro n s b rest hp hin
  obtain ⟨hrun, hacc⟩ := run_waiting_event hp hin (by simp [offering]) rfl rfl
  rw [List.length_replicate] at hrun hacc
  have hx : State.rxTransfer (State.transmitStep
      { s with inputs := offering b :: rest, tick := s.tick + n + 1 }) = true :=
    (State.rxTransfer_iff _).2 ⟨rfl, rfl, rfl⟩
  have hs := step_of_rxTransfer hx
  refine ⟨hacc, ?_, _, (run_add hrun (n := 1)).trans (run_succ hs), ?_⟩
  · rw [accepted_add hrun (n := 1), hacc, accepted_succ hs, State.acceptedNow_of_rxTransfer hx]
    rfl
  · rw [acceptStep_curByte, acceptStep_sent, acceptStep_inputs]
    exact ⟨rfl, rfl, rfl⟩

/-- Settles O22: the word decodes to the entry that its byte selects at `state`. -/
theorem stepRunsTheDecodedEntry : Obligations.StepRunsTheDecodedEntry := by
  intro s i hp hr hv hd
  rw [decode_eventWord] at hd
  rw [step_accept (s.rxTransfer_iff.2 ⟨hv, hp, hr⟩) rfl, Except.ok.inj hd]
  exact ⟨rfl, rfl⟩

/-- Settles O26, from the two cases of a completion. -/
theorem completionCheck : Obligations.CompletionCheck := by
  refine fun c s => ⟨fun hc => hc ▸ s.complete_sentinel, fun hc => ?_⟩
  rw [State.complete_data s hc]
  exact ⟨rfl, FrameState.next_code s.state⟩

end Sys2Proof.Machine

/-! # The length echo (family 41_length)

Both length entries leave an event waiting in TXWAIT with `cur_byte` and `tx_hold` known; that fixes what a step
without reset does to it in any environment. -/

namespace Sys2Proof.Machine

/-! ## A step of a waiting event -/

/-- Without reset a waiting event of a byte other than the sentinel holds until the sink is ready, then transmits
`tx_hold` and advances the position (40_event_cycle R66, R67, R69). -/
theorem step_txWait_data {u : State} {st : FrameState} (hp : u.phase = .txWait) (hc : u.curByte ≠ 0x0D#8)
    (hst : u.state.next = st) (hr : u.now.rst = false) :
    (u.now.txReady = false → step u = .next u.consume) ∧
    (u.now.txReady = true → step u =
      .next { u.consume with sent := u.sent ++ [u.txHold], phase := .idle, state := st }) :=
  ⟨step_waits hp hr, fun ht => by rw [transmitStep u hr hp ht, if_neg hc, hst]⟩

/-- Without reset a waiting event of the sentinel holds until the sink is ready, then transmits `tx_hold` and ends
the frame (40_event_cycle R66, R67, R69). -/
theorem step_txWait_sentinel {u : State} (hp : u.phase = .txWait) (hc : u.curByte = 0x0D#8)
    (hr : u.now.rst = false) :
    (u.now.txReady = false → step u = .next u.consume) ∧
    (u.now.txReady = true → step u =
      .next { u.consume with
        sent := u.sent ++ [u.txHold], phase := .idle, state := .awaitingLength, status := false }) :=
  ⟨step_waits hp hr, fun ht => by rw [transmitStep u hr hp ht, if_pos hc]⟩

/-! ## The obligations of the family -/

/-- Settles O11: the accept step leaves the event of `b` waiting at position 0, whose next is 1. -/
theorem lenEvent : Obligations.LenEvent := by
  intro b s hb hs
  refine ⟨decode_data .awaitingLength hb, mask_append _ b, _, rfl, rfl, ?_⟩
  rintro env n u rfl hr
  exact step_txWait_data rfl hb (congrArg FrameState.next hs) hr

/-- Settles O12: the accept step leaves the event of the sentinel waiting, with its echo 0x0A loaded. -/
theorem lenTEvent : Obligations.LenTEvent := by
  intro s _
  refine ⟨decode_term .awaitingLength, rfl, _, rfl, rfl, ?_⟩
  rintro env n u rfl hr
  exact step_txWait_sentinel rfl rfl hr

end Sys2Proof.Machine

/-! # The colour entries (family 42_color)

The whole event of a colour entry is one step: acceptance, the write of its compare register, and the completion,
which alone tells a sentinel from the other bytes. -/

namespace Sys2Proof.Machine

/-! ## An event that completes in its accept step -/

/-- An entry that completes a byte other than the sentinel on `u` advances `u`'s position, and that is all
(40_event_cycle R63, R69). -/
theorem exec_completes_data {i : Instr} {b : Byte} {s : State} (u : State) {st : FrameState} (hb : b ≠ 0x0D#8)
    (hu : u.state = st) (he : exec i s = .next (u.complete b)) : exec i s = .next { u with state := st.next } := by
  rw [he, State.complete_data u hb, hu]

/-- An entry that completes the sentinel on `u` ends the frame (40_event_cycle R63, R69). -/
theorem exec_completes_sentinel {i : Instr} {s : State} (u : State) (he : exec i s = .next (u.complete 0x0D#8)) :
    exec i s = .next { u with state := .awaitingLength, status := false } := by
  rw [he, State.complete_sentinel]

/-! ## The obligations of the family -/

/-- Settles O13: position 1 advances to 2 once the red register holds `255 − b`. -/
theorem redEvent : Obligations.RedEvent := fun b s hb hs =>
  ⟨decode_data .awaitingRed hb, mask_append _ b,
    exec_completes_data ((s.accept b).setRed (compareValue b)) hb hs rfl⟩

/-- Settles O15: position 2 advances to 3 once the green register holds `255 − b`. -/
theorem grnEvent : Obligations.GrnEvent := fun b s hb hs =>
  ⟨decode_data .awaitingGreen hb, mask_append _ b,
    exec_completes_data ((s.accept b).setGreen (compareValue b)) hb hs rfl⟩

/-- Settles O17: position 3 advances to 4 once the blue register holds `255 − b`. -/
theorem bluEvent : Obligations.BluEvent := fun b s hb hs =>
  ⟨decode_data .awaitingBlue hb, mask_append _ b,
    exec_completes_data ((s.accept b).setBlue (compareValue b)) hb hs rfl⟩

/-- Settles O14: the sentinel sets the red register to 0xF2 before it ends the frame. -/
theorem redTEvent : Obligations.RedTEvent := fun s _ =>
  ⟨decode_term .awaitingRed, rfl,
    exec_completes_sentinel ((s.accept 0x0D#8).setRed (compareValue 0x0D#8)) rfl⟩

/-- Settles O16: the sentinel sets the green register to 0xF2 before it ends the frame. -/
theorem grnTEvent : Obligations.GrnTEvent := fun s _ =>
  ⟨decode_term .awaitingGreen, rfl,
    exec_completes_sentinel ((s.accept 0x0D#8).setGreen (compareValue 0x0D#8)) rfl⟩

/-- Settles O18: the sentinel sets the blue register to 0xF2 before it ends the frame. -/
theorem bluTEvent : Obligations.BluTEvent := fun s _ =>
  ⟨decode_term .awaitingBlue, rfl,
    exec_completes_sentinel ((s.accept 0x0D#8).setBlue (compareValue 0x0D#8)) rfl⟩

end Sys2Proof.Machine

/-! # The passthrough entries (family 43_passthrough)

Both entries load the byte itself and leave its event waiting in TXWAIT. The relay comes before the termination check,
so the sentinel is transmitted too. -/

namespace Sys2Proof.Machine

/-! ## The obligations of the family -/

/-- Settles O19: the accept step leaves the event of `b` waiting at position 4, which saturates: its next is 4. -/
theorem passEvent : Obligations.PassEvent := by
  intro b s hb hs
  have hnext : s.state.next = .passthrough := congrArg FrameState.next hs
  refine ⟨decode_data .passthrough hb, mask_append _ b, _, rfl, rfl, ?_⟩
  rintro env n u rfl hr
  exact step_txWait_data rfl hb hnext hr

/-- Settles O20: the accept step leaves the event of the sentinel waiting, with the sentinel itself loaded. -/
theorem passTEvent : Obligations.PassTEvent := by
  intro s _
  refine ⟨decode_term .passthrough, rfl, _, rfl, rfl, ?_⟩
  rintro env n u rfl hr
  exact step_txWait_sentinel rfl rfl hr

end Sys2Proof.Machine

/-! # Exceptions and simultaneous inputs (family 60_exceptions)

The block raises no exception: nothing stops it, and which of reset, acceptance and transmit a step makes is fixed by
`rst` and `phase`. -/

namespace Sys2Proof.Machine

/-! ## The two transfers exclude each other, and a reset excludes both -/

theorem State.rxTransfer_of_rst {s : State} (hr : s.now.rst = true) : s.rxTransfer = false := by
  simp [State.rxTransfer, State.rxReady, hr]

theorem State.txTransfer_of_rst {s : State} (hr : s.now.rst = true) : s.txTransfer = false := by
  simp [State.txTransfer, State.txValid, hr]

theorem State.rxTransfer_of_txWait {s : State} (hp : s.phase = .txWait) : s.rxTransfer = false := by
  simp [State.rxTransfer, State.rxReady, hp]

/-! ## A step in IDLE -/

/-- In IDLE a step reads three of the four input ports: it resets, accepts or holds, whatever `tx_ready` is
(40_event_cycle R71, 60_exceptions R86). -/
theorem step_idle {s : State} (hp : s.phase = .idle) :
    step s = .next (if s.now.rst then s.consume.resetStep
      else if s.now.rxValid then acceptStep s.now.rxData s.consume else s.consume) := by
  cases hr : s.now.rst with
  | true => exact step_reset hr
  | false =>
    cases hv : s.now.rxValid with
    | true => exact step_offered hp hr hv
    | false =>
      obtain ⟨hstep, -⟩ := State.holds_idle hp ⟨hr, hv⟩
      exact hstep

/-- Two IDLE states that agree on these three ports and on the state a step starts to write make the same step. -/
theorem step_idle_congr {s t : State} (hs : s.phase = .idle) (ht : t.phase = .idle) (hr : s.now.rst = t.now.rst)
    (hv : s.now.rxValid = t.now.rxValid) (hd : s.now.rxData = t.now.rxData) (hc : s.consume = t.consume) :
    step s = step t := by
  rw [step_idle hs, step_idle ht, hr, hv, hd, hc]

/-! ## Returning to the start of a frame -/

/-- Completion leads to position 0 only on the sentinel, and then `status` is 0 (40_event_cycle R69). -/
theorem State.complete_to_start {c : Byte} {s : State} (h : (s.complete c).state = .awaitingLength) :
    c = 0x0D#8 ∧ (s.complete c).status = false := by
  by_cases hc : c = 0x0D#8
  · exact ⟨hc, by rw [hc, s.complete_sentinel]⟩
  · rw [s.complete_data hc] at h
    exact absurd h s.state.next_ne_awaitingLength

/-- Past position 0 an accept step leads back to it only by completing the event of the sentinel: at position 4 the
event waits to transmit and `state` stays. -/
theorem acceptStep_to_start {b : Byte} {s : State} (hs : s.state ≠ .awaitingLength)
    (h : (acceptStep b s).state = .awaitingLength) :
    b = 0x0D#8 ∧ (acceptStep b s).phase = s.phase ∧ (acceptStep b s).status = false := by
  obtain ⟨hlen, -⟩ | ⟨-, he⟩ | ⟨u, -, -, hpu, -, he⟩ := acceptStep_cases b s
  · exact absurd hlen hs
  · rw [he] at h
    exact absurd h hs
  · rw [he] at h ⊢
    obtain ⟨hb, hst⟩ := State.complete_to_start h
    exact ⟨hb, hpu, hst⟩

/-! ## Nothing stops -/

/-- Every entry has a meaning in every state (30_encoding R53). -/
theorem exists_exec_eq_next (i : Instr) (s : State) : ∃ t, exec i s = .next t := by
  cases i <;> exact ⟨_, rfl⟩

theorem exists_run_eq_next (n : Nat) (s : State) : ∃ t, run n s = .next t := by
  induction n generalizing s with
  | zero => exact ⟨s, rfl⟩
  | succ n ih =>
    obtain ⟨u, hu⟩ := exists_step_eq_next s
    rw [run_succ hu]
    exact ih u

/-! ## The obligations of the family -/

/-- Settles O32: a step, an entry and, by induction on its length, a run all answer a next state. -/
theorem everyStepAnswersNext : Obligations.EveryStepAnswersNext :=
  ⟨exists_step_eq_next, exists_exec_eq_next, exists_run_eq_next⟩

/-- Settles O34: a transmit transfer needs TXWAIT, where no byte is accepted. -/
theorem simultaneousInputs : Obligations.SimultaneousInputs := by
  refine fun s => ⟨fun hr => ⟨step_reset hr, s.rxTransfer_of_rst hr, s.txTransfer_of_rst hr⟩, ?_,
    s.rxTransfer_of_txWait⟩
  rintro ⟨hx, ht⟩
  obtain ⟨hp, -, -⟩ := s.txTransfer_iff.1 ht
  simp [State.rxTransfer_of_txWait hp] at hx

/-- Settles O36: the ports that a step in IDLE reads agree in the two states. -/
theorem sinkReadyUnseenWhenIdle : Obligations.SinkReadyUnseenWhenIdle :=
  fun _ _ _ _ hp hr hv hd => step_idle_congr hp hp hr hv hd rfl

/-- Settles O47, by the four kinds of step: a reset, and the two that can complete an event. -/
theorem onlySentinelOrResetReturnsToStart : Obligations.OnlySentinelOrResetReturnsToStart := by
  intro s t h hs h0
  obtain ⟨hr, -⟩ | ⟨hx, rfl⟩ | ⟨-, rfl⟩ | ⟨-, -, -, rfl⟩ := step_cases h
  · exact .inl hr
  · obtain ⟨-, hp, -⟩ := s.rxTransfer_iff.1 hx
    obtain ⟨hb, hpt, hst⟩ := acceptStep_to_start (s := s.consume) hs h0
    exact .inr ⟨(acceptStep_curByte _ _).trans hb, hpt.trans hp, hst⟩
  · obtain ⟨hc, hst⟩ := State.complete_to_start h0
    exact .inr ⟨hc, rfl, hst⟩
  · exact absurd h0 hs

end Sys2Proof.Machine

/-! # Reset and resynchronisation (family 70_reset_and_hazards)

A reset step and a finished sentinel both leave the block in IDLE at the start of a frame with `status` 0. From there it
keeps still while no byte is offered, and takes the next byte offered as byte 0. -/

namespace Sys2Proof.Machine

/-! ## The start of a frame -/

/-- In IDLE before byte 0 of a frame, with no frame in progress: what a reset step and the end of a frame leave
(70_reset R97, R103). -/
def State.AtStart (s : State) : Prop := s.state = .awaitingLength ∧ s.phase = .idle ∧ s.status = false

theorem State.resetStep_atStart (s : State) : s.resetStep.AtStart := ⟨rfl, rfl, rfl⟩

/-- With no byte offered a step stays at the start of a frame and transmits nothing, whether it resets or holds. -/
theorem State.AtStart.step_unoffered {s : State} (h : s.AtStart) (hv : s.now.rxValid = false) :
    ∃ t, step s = .next t ∧ t.AtStart ∧ t.sent = s.sent := by
  have ⟨_, hp, _⟩ := h
  cases hr : s.now.rst with
  | true => exact ⟨_, step_reset hr, State.resetStep_atStart _, rfl⟩
  | false =>
    obtain ⟨hstep, -⟩ := State.holds_idle hp ⟨hr, hv⟩
    exact ⟨_, hstep, h, rfl⟩

/-- So does a run of any length during which no byte is offered. -/
theorem State.AtStart.run_unoffered {n : Nat} {s : State} (h : s.AtStart) (hn : n ≤ s.inputs.length)
    (hv : ∀ i ∈ s.inputs.take n, i.rxValid = false) :
    ∃ t, run n s = .next t ∧ t.AtStart ∧ t.sent = s.sent := by
  induction n generalizing s with
  | zero => exact ⟨s, rfl, h, rfl⟩
  | succ n ih =>
    cases hin : s.inputs with
    | nil => simp [hin] at hn
    | cons i rest =>
      rw [hin, List.take_succ_cons] at hv
      obtain ⟨hi, hrest⟩ := List.forall_mem_cons.1 hv
      obtain ⟨u, hs, hu, hsent⟩ := h.step_unoffered (by rwa [State.now_of_cons hin])
      have hinu : u.inputs = rest := by rw [step_inputs hs, hin, List.tail_cons]
      obtain ⟨t, hrun, ht, hsent'⟩ := ih hu (by simpa [hin, hinu] using hn) (by rwa [hinu])
      exact ⟨t, (run_succ hs).trans hrun, ht, hsent'.trans hsent⟩

/-- The byte offered at the start of a frame is taken as byte 0: its length echo waits to transmit (41_length R73). -/
theorem State.AtStart.step_offered {s : State} (h : s.AtStart) (hr : s.now.rst = false)
    (hv : s.now.rxValid = true) :
    step s = .next ((s.consume.accept s.now.rxData).loadTransmit (lenEcho s.now.rxData)) := by
  obtain ⟨hst, hp, -⟩ := h
  rw [Machine.step_offered hp hr hv]
  simp [acceptStep, hst]

/-! ## The obligations of the family -/

/-- Settles O41: the reset step accepts nothing and leaves the start of a frame, where the byte still offered is
byte 0. -/
theorem byteOfferedDuringReset : Obligations.ByteOfferedDuringReset := by
  rintro s i j rest b hin hri - - hrj hvj rfl
  have hr : s.now.rst = true := by rwa [State.now_of_cons hin]
  have hnow : s.consume.resetStep.now = j := State.now_of_cons (rest := rest) (by simp [hin])
  have hx : s.consume.resetStep.rxTransfer = true := (State.rxTransfer_iff _).2 (by simp [hnow, hvj, hrj])
  have hstep := (State.resetStep_atStart s.consume).step_offered (hnow ▸ hrj) (hnow ▸ hvj)
  rw [hnow] at hstep
  refine ⟨State.acceptedNow_of_not_rxTransfer (s.rxTransfer_of_rst hr), _, _, step_reset hr, rfl, rfl, ?_, hstep,
    rfl, rfl, rfl, rfl⟩
  rw [State.acceptedNow_of_rxTransfer hx, hnow]

/-- Settles O54: the sentinel's whole event ends at the start of a frame, where the next byte is byte 0. -/
theorem sentinelResynchronises : Obligations.SentinelResynchronises := by
  intro s waits b rest hp hin
  obtain ⟨-, t, hrun, hpt, hint, hobs⟩ := run_eventScript hp hin
  rw [Observation.event_sentinel] at hobs
  obtain ⟨hstate, -, -, -, hstatus, hsent⟩ := Observation.mk.inj hobs
  have hnow : t.now = offering b := State.now_of_cons hint
  have hstart : t.AtStart := ⟨hstate, hpt, hstatus⟩
  have hstep := hstart.step_offered (by rw [hnow]; rfl) (by rw [hnow]; rfl)
  rw [hnow] at hstep
  exact ⟨t, _, hrun, hstate, hstatus, hpt,
    fun h0 => by simp [hsent, Observation.branch, State.observe, h0], hstep, rfl, rfl, rfl⟩

/-- Settles O57: the reset step leaves the start of a frame without a transfer, and there the run stays; a colour
entry's position does not transmit. -/
theorem resetAbandonsWaitingEvent : Obligations.ResetAbandonsWaitingEvent := by
  constructor
  · intro n s i rest _ hin hri hn hv
    have hr : s.now.rst = true := by rwa [State.now_of_cons hin]
    have hrest : s.consume.resetStep.inputs = rest := by simp [hin]
    obtain ⟨t, hrun, ⟨hstate, hpt, hstatus⟩, hsent⟩ :=
      (State.resetStep_atStart s.consume).run_unoffered (n := n) (by rwa [hrest]) (by rwa [hrest])
    exact ⟨t, (run_succ (step_reset hr)).trans hrun, hsent, hpt, hstate, hstatus⟩
  · intro s hx hcolour
    obtain ⟨-, hp, -⟩ := s.rxTransfer_iff.1 hx
    refine ⟨_, step_of_rxTransfer hx, ?_⟩
    rw [acceptStep_phase]
    obtain h | h | h := hcolour <;> simp [FrameState.transmits, h, hp]

/-- Settles O38, by what `State.reset` lists. -/
theorem resetValues : Obligations.ResetValues := ⟨rfl, rfl, rfl, rfl, rfl, rfl⟩

/-- Settles O39: reset closes both ports and wins over the transfers. -/
theorem resetStep : Obligations.ResetStep := fun s hr =>
  ⟨by simp [State.rxReady, hr], by simp [State.txValid, hr], _, step_reset hr, rfl, rfl, rfl, rfl, rfl, rfl, rfl, rfl⟩

end Sys2Proof.Machine

/-! # What a step does not see (family other)

A step reads neither the receive port in TXWAIT or in reset, nor `status`, nor, in reset, any element of the block. The
two readings of `Config.Policy` are seen only where a byte is accepted, at a sentinel and at a declared length. -/

namespace Sys2Proof.Machine

/-! ## A step in TXWAIT -/

/-- In TXWAIT a step reads two of the four input ports: it resets, transmits or holds, whatever the receive port carries
(40_event_cycle R66 to R68). -/
theorem step_txWait {s : State} (hp : s.phase = .txWait) :
    step s = .next (if s.now.rst then s.consume.resetStep
      else if s.now.txReady then s.consume.transmitStep else s.consume) := by
  cases hr : s.now.rst with
  | true => exact step_reset hr
  | false =>
    cases ht : s.now.txReady with
    | true => exact step_transmit (s.txTransfer_iff.2 ⟨hp, hr, ht⟩)
    | false => exact step_waits hp hr ht

/-- Two TXWAIT states that agree on these two ports and on the state a step starts to write make the same step. -/
theorem step_txWait_congr {s t : State} (hs : s.phase = .txWait) (ht : t.phase = .txWait)
    (hr : s.now.rst = t.now.rst) (hready : s.now.txReady = t.now.txReady) (hc : s.consume = t.consume) :
    step s = step t := by
  rw [step_txWait hs, step_txWait ht, hr, hready, hc]

/-! ## A reset step -/

/-- A reset step keeps the environment's fields and the transmit channel, and writes all the rest anew. -/
theorem State.resetStep_congr {s u : State} (hi : s.inputs = u.inputs) (ht : s.tick = u.tick)
    (hsent : s.sent = u.sent) : s.resetStep = u.resetStep := by
  simp only [State.resetStep, hi, ht, hsent]

/-! ## A change of `status` -/

/-- `s` with `status` set to `x`. -/
def State.withStatus (x : Bool) (s : State) : State := { s with status := x }

/-- An acceptance overwrites `status` before anything can depend on it (40_event_cycle R61). -/
theorem acceptStep_withStatus (b : Byte) (x : Bool) (s : State) : acceptStep b (s.withStatus x) = acceptStep b s := rfl

/-- A transmit step keeps or clears the `status` it finds, and no other element depends on it (40_event_cycle R69). -/
theorem State.transmitStep_withStatus (x : Bool) (s : State) :
    (s.withStatus x).transmitStep = s.transmitStep.withStatus (statusAtComplete s.curByte x) := rfl

/-- Two states that differ only in `status` make the same kind of step, and each kind hands `status` on or overwrites
it (10_state R23). -/
theorem step_withStatus (s : State) (x : Bool) :
    ∃ t y, step s = .next t ∧ step (s.withStatus x) = .next (t.withStatus y) := by
  obtain ⟨t, h⟩ := exists_step_eq_next s
  obtain ⟨hr, rfl⟩ | ⟨hx, rfl⟩ | ⟨ht, rfl⟩ | ⟨hr, hx, ht, rfl⟩ := step_cases h
  · exact ⟨_, false, h, step_reset (s := s.withStatus x) hr⟩
  · have hstep := step_of_rxTransfer (s := s.withStatus x) hx
    have hsame := acceptStep_withStatus s.now.rxData x s.consume
    exact ⟨_, _, h, hstep.trans (congrArg Host.Outcome.next hsame)⟩
  · have hstep := step_transmit (s := s.withStatus x) ht
    exact ⟨_, _, h, hstep.trans (congrArg Host.Outcome.next (s.consume.transmitStep_withStatus x))⟩
  · exact ⟨_, x, h, step_hold (s := s.withStatus x) hr hx ht⟩

/-! ## The readings of a policy -/

/-- With no byte accepted the policy is not asked: a step of R71 resets, transmits or holds. -/
theorem Reference.step_policy_irrelevant (p q : Config.Policy) {s : State} (hx : s.rxTransfer = false) :
    Reference.step p s = Reference.step q s := by
  cases hr : s.now.rst with
  | true => rw [Reference.step_reset hr, Reference.step_reset hr]
  | false =>
    have hidle : ¬ (s.phase = .idle ∧ s.now.rxValid = true) := fun ⟨hp, hv⟩ => by
      simp [s.rxTransfer_iff.2 ⟨hv, hp, hr⟩] at hx
    simp only [Reference.step, hr, State.consume_phase, hidle, if_false, Bool.false_eq_true]

/-- An accepted byte takes R71's branch on `state`, or, where it is a sentinel that does not dispatch, only completes
(93_implementation_defined U12). -/
theorem Reference.step_of_rxTransfer (p : Config.Policy) {s : State} (hx : s.rxTransfer = true) :
    Reference.step p s =
      if s.now.rxData = 0x0D#8 ∧ p.sentinelDispatches = false
      then (s.consume.accept s.now.rxData).complete s.now.rxData
      else Reference.branch p s.now.rxData (s.consume.accept s.now.rxData) := by
  obtain ⟨hv, hp, hr⟩ := s.rxTransfer_iff.1 hx
  rw [← Reference.complete_eq]
  exact (if_neg (by simp [hr])).trans (if_pos ⟨hp, hv⟩)

/-- From 3 on the length echo does not underflow, and the policies agree on it (92_eei_decisions D5). -/
theorem Reference.echo_of_three_le (u : Config.UnderflowPolicy) {b : Byte} (h : 3 ≤ b.toNat) :
    Reference.echo u b = lenEcho b := by
  cases u with
  | wrap => exact Reference.echo_wrap b
  | saturate =>
    rw [Reference.echo, lenEcho]
    bv_omega

/-- Away from a declared length below 3 the branch on `state` is the accept step under every policy. -/
theorem Reference.branch_accept_of_three_le (p : Config.Policy) {b : Byte} {s : State}
    (h : s.state = .awaitingLength → 3 ≤ b.toNat) : Reference.branch p b (s.accept b) = acceptStep b s := by
  rw [← Reference.branch_accept]
  cases hs : s.state with
  | awaitingLength =>
    simp [Reference.branch, hs, Reference.echo_of_three_le _ (h hs)]
  | awaitingRed | awaitingGreen | awaitingBlue | passthrough => simp [Reference.branch, hs]

/-! ## The obligations of the family -/

/-- Settles O35: a step in TXWAIT and a reset step read no port in which the two states differ. -/
theorem offeredByteUnseenUnlessAccepting : Obligations.OfferedByteUnseenUnlessAccepting := by
  intro s i j rest h hr ht
  obtain hp | hi := h
  · exact step_txWait_congr hp hp hr ht rfl
  · rw [step_reset (s := { s with inputs := i :: rest }) hi,
      step_reset (s := { s with inputs := j :: rest }) (hr ▸ hi)]
    rfl

/-- Settles O37, from the steps of the two states. -/
theorem statusIsNeverRead : Obligations.StatusIsNeverRead := step_withStatus

/-- Settles O56: with no byte accepted no policy is asked, and the byte accepted here takes the branch that all of them
share. -/
theorem policiesDifferOnlyAtTheirPoints : Obligations.PoliciesDifferOnlyAtTheirPoints := by
  intro p s h
  cases hx : s.rxTransfer with
  | false => rw [stepIsTheSpecStep s, Reference.step_policy_irrelevant _ p hx]
  | true =>
    obtain ⟨hb, hlen⟩ := h hx
    rw [step_of_rxTransfer hx, Reference.step_of_rxTransfer p hx, if_neg fun ⟨hb', _⟩ => hb hb',
      Reference.branch_accept_of_three_le p (s := s.consume) hlen]

/-- Settles O40: the two states hold the same of what a reset step keeps. -/
theorem resetForgetsTheEvent : Obligations.ResetForgetsTheEvent := by
  intro s u hi ht hsent hr
  have hru : u.now.rst = true := State.now_congr hi ht ▸ hr
  have hsame : u.consume.resetStep = s.consume.resetStep := State.resetStep_congr (by simp [hi]) (by simp [ht]) hsent
  exact ⟨_, step_reset hr, hsame ▸ step_reset hru, rfl, rfl, rfl⟩

/-- Settles O55: the sentinel accepted under the losing reading only completes. -/
theorem sentinelUnderLosingReading : Obligations.SentinelUnderLosingReading := by
  intro p s hlose hp hr hv hb
  rw [Reference.step_of_rxTransfer p (s.rxTransfer_iff.2 ⟨hv, hp, hr⟩), if_pos ⟨hb, hlose⟩, hb,
    State.complete_sentinel]
  rfl

end Sys2Proof.Machine
